-- ==== Sys2Proof/Word.lean ====
section
/-! DEFINITION. The word types of the core: 8-bit data and 16-bit addresses (00_scope.md R8, R11). -/

namespace Sys2Proof

/-- A data byte: A, X, Y, SP, P and every memory byte (00_scope.md R8). -/
abbrev Byte := BitVec 8

/-- A 16-bit value: PC and every effective address (00_scope.md R8). -/
abbrev Word := BitVec 16

end Sys2Proof
end

