-- ==== Sys2Proof/Machine/Bits.lean ====
section
/-! DEFINITION. Byte order, slices and extensions of 00_scope.md R10, R11. -/

namespace Sys2Proof

/-- `hi:lo`, the word hi * 256 + lo (00_scope.md R11). -/
def hiLo (hi lo : Byte) : Word := hi ++ lo

/-- `w[7:0]` (00_scope.md R10). -/
def loByte (w : Word) : Byte := w.extractLsb' 0 8

/-- `w[15:8]` (00_scope.md R10). -/
def hiByte (w : Word) : Byte := w.extractLsb' 8 8

/-- `zext_16(b)` (00_scope.md R11). -/
def zext16 (b : Byte) : Word := b.setWidth 16

/-- `sext_16(b)` (00_scope.md R11). -/
def sext16 (b : Byte) : Word := b.signExtend 16

/-- `signed8(b)` (00_scope.md R11). -/
def signed8 (b : Byte) : Int := b.toInt

/-- `wrap8(v)` of an unbounded integer (00_scope.md R11). -/
def wrap8 (v : Int) : Byte := BitVec.ofInt 8 v

end Sys2Proof
end

