-- ==== Sys2Proof/Config.lean ====
section
/-! DEFINITION. What is fixed for the machine: the fixed parameters of 00_scope.md R8 and the two open
parameters of R9. -/

namespace Sys2Proof

/-- UNKNOWN_OPCODE_POLICY (00_scope.md R9): what executing an Unknown opcode byte does. -/
inductive UnknownOpcodePolicy where
  | strict      -- the core faults (60_exceptions.md R702)
  | permissive  -- a one-byte no-op with a diagnostic (60_exceptions.md R703)
  deriving DecidableEq, Repr

/-- DECIMAL_MODE (00_scope.md R9): whether ADC and SBC honour P.D. -/
inductive DecimalMode where
  | nmos     -- BCD arithmetic when P.D = 1 (43_arithmetic.md R483, R484)
  | ignored  -- always binary (43_arithmetic.md R485)
  deriving DecidableEq, Repr

/-- The open parameters of 00_scope.md R9, fixed for the life of a machine. -/
structure Config where
  unknownOpcode : UnknownOpcodePolicy
  decimal : DecimalMode
  deriving DecidableEq, Repr

/-- The defaults 00_scope.md R9 gives the two parameters. -/
def Config.default : Config := { unknownOpcode := .strict, decimal := .nmos }

/-- SP after `new` and after `reset` (00_scope.md R8). -/
def spAtReset : Byte := 0xFD#8

/-- The address of the reset vector's low byte (00_scope.md R8). -/
def resetVector : Word := 0xFFFC#16

/-- Where `load` places a program (00_scope.md R8). -/
def loadBase : Word := 0x8000#16

/-- The longest program `load` accepts, 0x10000 - 0x8000 bytes (00_scope.md R8). -/
def maxProgramLength : Nat := 0x8000

/-- The first byte of the stack page 0x0100-0x01FF (00_scope.md R8). -/
def stackPage : Word := 0x0100#16

end Sys2Proof
end

