-- ==== Sys2Proof/Machine/State.lean ====
section
/-! DEFINITION. The state of the core, as 10_state.md lists it, its reset value, and the reasons a call can be
turned away. -/

namespace Sys2Proof.Machine

/-- Memory: the bytes that differ from what an unlisted address reads as (`Memory.unlisted`), by strictly rising
address. -/
abbrev Memory := List Host.Cell

/-- The run state RS (10_state.md R130). -/
inductive RunState where
  | running
  | halted   -- after BRK, a normal end
  | faulted  -- after an unknown opcode under the strict policy
  deriving DecidableEq, Repr

/-- The fault record FR (10_state.md R131). -/
inductive FaultRecord where
  | none
  | brk (addr : Word)
  | illegalOpcode (op : Byte) (addr : Word)
  deriving DecidableEq, Repr

/-- The diagnostic `UnknownOpcode(op, addr)` of the permissive policy (10_state.md R132). -/
structure Diagnostic where
  op : Byte
  addr : Word
  deriving DecidableEq, Repr

/-- A reason to stop with no next state. None exists: every step of this core, the strict policy's fault
included, leaves a state the host can read (40_execution_and_addressing.md R401, 60_exceptions.md R702, R704;
log entry 1), so no constructor is needed and nothing can raise one. -/
inductive Fault where
  deriving DecidableEq, Repr

/-- A reason to turn a call away. -/
inductive Refusal where
  /-- Raised by exec's arm of an instruction that has no meaning yet; safe. No arm raises it now. -/
  | notModelled (mnemonic : String)
  /-- Raised by the host call `is_set(0)`, a caller error with no result (60_exceptions.md R705); safe. -/
  | zeroFlagMask
  /-- Raised by the host call `load` of more than 0x8000 bytes, a caller error that writes nothing
  (60_exceptions.md R706); safe. -/
  | programTooLarge (length : Nat)
  deriving DecidableEq, Repr

/-- The core's whole state (10_state.md R100, R110, R130 to R132, R135), with the machine's fixed parameters
(log entry 2). -/
structure State where
  /-- Program counter (R105). -/
  pc : Word
  /-- Stack pointer (R104). -/
  sp : Byte
  /-- Accumulator (R101). -/
  a : Byte
  /-- Index register X (R102). -/
  x : Byte
  /-- Index register Y (R103). -/
  y : Byte
  /-- Status register P, bits 7..0 N V U B D I Z C (R110). -/
  p : Byte
  /-- Run state RS (R130). -/
  rs : RunState
  /-- Fault record FR (R131). -/
  fr : FaultRecord
  /-- The 65,536-byte memory (20_memory.md R200). -/
  mem : Memory
  /-- The diagnostics emitted so far, oldest first (R132; log entry 3). -/
  diagnostics : List Diagnostic
  /-- UNKNOWN_OPCODE_POLICY and DECIMAL_MODE (00_scope.md R9; log entry 2). -/
  config : Config
  deriving DecidableEq, Repr

/-- The outcome of a step of this machine. -/
abbrev StepResult := Host.Outcome State Fault Refusal

/-- The machine right after `new` and `reset` with nothing loaded (10_state.md R135): PC is the reset vector's
content, 0x0000 over the zeroed memory (log entry 5). -/
def State.reset : State where
  pc := 0x0000#16
  sp := spAtReset
  a := 0x00#8
  x := 0x00#8
  y := 0x00#8
  p := 0x00#8
  rs := .running
  fr := .none
  mem := []
  diagnostics := []
  config := Config.default

end Sys2Proof.Machine
end

