-- ==== Sys2Proof/Syntax.lean ====
section
/-! DEFINITION. The instruction set as syntax: the 56 operation tags and 13 addressing-mode tags of
00_scope.md R2, the decoded operand of each mode (30_encoding.md R300, R302), and Instr, one constructor per
row of spec/opcode_table.json. -/

namespace Sys2Proof

/-- The 56 operation tags (00_scope.md R2, 30_encoding.md R306). -/
inductive Op where
  | lda | ldx | ldy | sta | stx | sty
  | tax | tay | txa | tya | tsx | txs
  | adc | sbc
  | inc | dec | inx | iny | dex | dey
  | asl | lsr | rol | ror
  | and | ora | eor | bit | cmp | cpx | cpy
  | bpl | bmi | bvc | bvs | bcc | bcs | bne | beq
  | jmp | jsr | rts | rti | brk
  | pha | php | pla | plp | clc | sec | cli | sei | clv | cld | sed | nop
  deriving DecidableEq, Repr

/-- The 13 addressing-mode tags, the source's closed set (30_encoding.md R307). -/
inductive Mode where
  | immediate | zeroPage | zeroPageX | zeroPageY
  | absolute | absoluteX | absoluteY | relative
  | indirect | indirectX | indirectY
  | implied         -- Accumulator/Implied
  | noneAddressing
  deriving DecidableEq, Repr

/-- How many operand bytes follow the opcode (30_encoding.md R300, 40_execution_and_addressing.md R410). -/
def Mode.operandWidth : Mode → Nat
  | .implied | .noneAddressing => 0
  | .immediate | .zeroPage | .zeroPageX | .zeroPageY | .relative | .indirectX | .indirectY => 1
  | .absolute | .absoluteX | .absoluteY | .indirect => 2

/-- An addressing mode with the operand bytes it has consumed: operand8 as a byte, operand16 as a word
assembled little-endian (30_encoding.md R302). -/
inductive Operand where
  | immediate (v : Byte)
  | zeroPage (b : Byte)
  | zeroPageX (b : Byte)
  | zeroPageY (b : Byte)
  | absolute (w : Word)
  | absoluteX (w : Word)
  | absoluteY (w : Word)
  | relative (off : Byte)
  | indirect (w : Word)
  | indirectX (b : Byte)
  | indirectY (b : Byte)
  | implied
  | noneAddressing
  deriving DecidableEq, Repr

/-- The mode tag of a decoded operand. -/
def Operand.mode : Operand → Mode
  | .immediate _ => .immediate
  | .zeroPage _ => .zeroPage
  | .zeroPageX _ => .zeroPageX
  | .zeroPageY _ => .zeroPageY
  | .absolute _ => .absolute
  | .absoluteX _ => .absoluteX
  | .absoluteY _ => .absoluteY
  | .relative _ => .relative
  | .indirect _ => .indirect
  | .indirectX _ => .indirectX
  | .indirectY _ => .indirectY
  | .implied => .implied
  | .noneAddressing => .noneAddressing

/-- One constructor per row of spec/opcode_table.json, carrying the row's operand bytes: `Byte` is operand8,
`Word` is operand16 (30_encoding.md R300, R306). Suffixes: Imm Immediate, Zp ZeroPage, ZpX, ZpY, Abs Absolute,
AbsX, AbsY, Ind Indirect, IndX IndirectX, IndY IndirectY, Acc the accumulator form. -/
inductive Instr where
  -- Loads and stores (41_load_store.md)
  | ldaImm (b : Byte) | ldaZp (b : Byte) | ldaZpX (b : Byte) | ldaIndX (b : Byte)
  | ldaIndY (b : Byte)
  | ldaAbs (w : Word) | ldaAbsX (w : Word) | ldaAbsY (w : Word)
  | ldxImm (b : Byte) | ldxZp (b : Byte) | ldxZpY (b : Byte)
  | ldxAbs (w : Word) | ldxAbsY (w : Word)
  | ldyImm (b : Byte) | ldyZp (b : Byte) | ldyZpX (b : Byte)
  | ldyAbs (w : Word) | ldyAbsX (w : Word)
  | staZp (b : Byte) | staZpX (b : Byte) | staIndX (b : Byte) | staIndY (b : Byte)
  | staAbs (w : Word) | staAbsX (w : Word) | staAbsY (w : Word)
  | stxZp (b : Byte) | stxZpY (b : Byte)
  | stxAbs (w : Word)
  | styZp (b : Byte) | styZpX (b : Byte)
  | styAbs (w : Word)
  -- Register transfers (42_transfer.md)
  | tax
  | tay
  | txa
  | tya
  | tsx
  | txs
  -- Add and subtract (43_arithmetic.md)
  | adcImm (b : Byte) | adcZp (b : Byte) | adcZpX (b : Byte) | adcIndX (b : Byte)
  | adcIndY (b : Byte)
  | adcAbs (w : Word) | adcAbsX (w : Word) | adcAbsY (w : Word)
  | sbcImm (b : Byte) | sbcZp (b : Byte) | sbcZpX (b : Byte) | sbcIndX (b : Byte)
  | sbcIndY (b : Byte)
  | sbcAbs (w : Word) | sbcAbsX (w : Word) | sbcAbsY (w : Word)
  -- Increment and decrement (44_incdec.md)
  | incZp (b : Byte) | incZpX (b : Byte)
  | incAbs (w : Word) | incAbsX (w : Word)
  | decZp (b : Byte) | decZpX (b : Byte)
  | decAbs (w : Word) | decAbsX (w : Word)
  | inx
  | iny
  | dex
  | dey
  -- Shifts and rotates (45_shift_rotate.md)
  | aslAcc
  | aslZp (b : Byte) | aslZpX (b : Byte)
  | aslAbs (w : Word) | aslAbsX (w : Word)
  | lsrAcc
  | lsrZp (b : Byte) | lsrZpX (b : Byte)
  | lsrAbs (w : Word) | lsrAbsX (w : Word)
  | rolAcc
  | rolZp (b : Byte) | rolZpX (b : Byte)
  | rolAbs (w : Word) | rolAbsX (w : Word)
  | rorAcc
  | rorZp (b : Byte) | rorZpX (b : Byte)
  | rorAbs (w : Word) | rorAbsX (w : Word)
  -- Logic, bit test and compares (46_logic_compare.md)
  | andImm (b : Byte) | andZp (b : Byte) | andZpX (b : Byte) | andIndX (b : Byte)
  | andIndY (b : Byte)
  | andAbs (w : Word) | andAbsX (w : Word) | andAbsY (w : Word)
  | oraImm (b : Byte) | oraZp (b : Byte) | oraZpX (b : Byte) | oraIndX (b : Byte)
  | oraIndY (b : Byte)
  | oraAbs (w : Word) | oraAbsX (w : Word) | oraAbsY (w : Word)
  | eorImm (b : Byte) | eorZp (b : Byte) | eorZpX (b : Byte) | eorIndX (b : Byte)
  | eorIndY (b : Byte)
  | eorAbs (w : Word) | eorAbsX (w : Word) | eorAbsY (w : Word)
  | bitZp (b : Byte)
  | bitAbs (w : Word)
  | cmpImm (b : Byte) | cmpZp (b : Byte) | cmpZpX (b : Byte) | cmpIndX (b : Byte)
  | cmpIndY (b : Byte)
  | cmpAbs (w : Word) | cmpAbsX (w : Word) | cmpAbsY (w : Word)
  | cpxImm (b : Byte) | cpxZp (b : Byte)
  | cpxAbs (w : Word)
  | cpyImm (b : Byte) | cpyZp (b : Byte)
  | cpyAbs (w : Word)
  -- Branches (47_branch.md)
  | bpl (b : Byte)
  | bmi (b : Byte)
  | bvc (b : Byte)
  | bvs (b : Byte)
  | bcc (b : Byte)
  | bcs (b : Byte)
  | bne (b : Byte)
  | beq (b : Byte)
  -- Jumps, subroutines, returns and BRK (48_jump_subroutine.md)
  | jmpAbs (w : Word) | jmpInd (w : Word)
  | jsr (w : Word)
  | rts
  | rti
  | brk
  -- Stack, flags and NOP (49_stack_flags.md)
  | pha
  | php
  | pla
  | plp
  | clc
  | sec
  | cli
  | sei
  | clv
  | cld
  | sed
  | nop
  deriving DecidableEq, Repr

/-- The operation tag of an instruction's table entry (30_encoding.md R303, R306). -/
def Instr.op : Instr → Op
  | .ldaImm _ | .ldaZp _ | .ldaZpX _ | .ldaAbs _ | .ldaAbsX _ | .ldaAbsY _ | .ldaIndX _
    | .ldaIndY _ => .lda
  | .ldxImm _ | .ldxZp _ | .ldxZpY _ | .ldxAbs _ | .ldxAbsY _ => .ldx
  | .ldyImm _ | .ldyZp _ | .ldyZpX _ | .ldyAbs _ | .ldyAbsX _ => .ldy
  | .staZp _ | .staZpX _ | .staAbs _ | .staAbsX _ | .staAbsY _ | .staIndX _ | .staIndY _ => .sta
  | .stxZp _ | .stxZpY _ | .stxAbs _ => .stx
  | .styZp _ | .styZpX _ | .styAbs _ => .sty
  | .tax => .tax
  | .tay => .tay
  | .txa => .txa
  | .tya => .tya
  | .tsx => .tsx
  | .txs => .txs
  | .adcImm _ | .adcZp _ | .adcZpX _ | .adcAbs _ | .adcAbsX _ | .adcAbsY _ | .adcIndX _
    | .adcIndY _ => .adc
  | .sbcImm _ | .sbcZp _ | .sbcZpX _ | .sbcAbs _ | .sbcAbsX _ | .sbcAbsY _ | .sbcIndX _
    | .sbcIndY _ => .sbc
  | .incZp _ | .incZpX _ | .incAbs _ | .incAbsX _ => .inc
  | .decZp _ | .decZpX _ | .decAbs _ | .decAbsX _ => .dec
  | .inx => .inx
  | .iny => .iny
  | .dex => .dex
  | .dey => .dey
  | .aslZp _ | .aslZpX _ | .aslAbs _ | .aslAbsX _ | .aslAcc => .asl
  | .lsrZp _ | .lsrZpX _ | .lsrAbs _ | .lsrAbsX _ | .lsrAcc => .lsr
  | .rolZp _ | .rolZpX _ | .rolAbs _ | .rolAbsX _ | .rolAcc => .rol
  | .rorZp _ | .rorZpX _ | .rorAbs _ | .rorAbsX _ | .rorAcc => .ror
  | .andImm _ | .andZp _ | .andZpX _ | .andAbs _ | .andAbsX _ | .andAbsY _ | .andIndX _
    | .andIndY _ => .and
  | .oraImm _ | .oraZp _ | .oraZpX _ | .oraAbs _ | .oraAbsX _ | .oraAbsY _ | .oraIndX _
    | .oraIndY _ => .ora
  | .eorImm _ | .eorZp _ | .eorZpX _ | .eorAbs _ | .eorAbsX _ | .eorAbsY _ | .eorIndX _
    | .eorIndY _ => .eor
  | .bitZp _ | .bitAbs _ => .bit
  | .cmpImm _ | .cmpZp _ | .cmpZpX _ | .cmpAbs _ | .cmpAbsX _ | .cmpAbsY _ | .cmpIndX _
    | .cmpIndY _ => .cmp
  | .cpxImm _ | .cpxZp _ | .cpxAbs _ => .cpx
  | .cpyImm _ | .cpyZp _ | .cpyAbs _ => .cpy
  | .bpl _ => .bpl
  | .bmi _ => .bmi
  | .bvc _ => .bvc
  | .bvs _ => .bvs
  | .bcc _ => .bcc
  | .bcs _ => .bcs
  | .bne _ => .bne
  | .beq _ => .beq
  | .jmpAbs _ | .jmpInd _ => .jmp
  | .jsr _ => .jsr
  | .rts => .rts
  | .rti => .rti
  | .brk => .brk
  | .pha => .pha
  | .php => .php
  | .pla => .pla
  | .plp => .plp
  | .clc => .clc
  | .sec => .sec
  | .cli => .cli
  | .sei => .sei
  | .clv => .clv
  | .cld => .cld
  | .sed => .sed
  | .nop => .nop

/-- The addressing mode of an instruction with its operand bytes (30_encoding.md R306). -/
def Instr.operand : Instr → Operand
  | .ldaImm b | .ldxImm b | .ldyImm b | .adcImm b | .sbcImm b | .andImm b | .oraImm b | .eorImm b
    | .cmpImm b | .cpxImm b | .cpyImm b => .immediate b
  | .ldaZp b | .ldxZp b | .ldyZp b | .staZp b | .stxZp b | .styZp b | .adcZp b | .sbcZp b
    | .incZp b | .decZp b | .aslZp b | .lsrZp b | .rolZp b | .rorZp b | .andZp b | .oraZp b
    | .eorZp b | .bitZp b | .cmpZp b | .cpxZp b | .cpyZp b => .zeroPage b
  | .ldaZpX b | .ldyZpX b | .staZpX b | .styZpX b | .adcZpX b | .sbcZpX b | .incZpX b | .decZpX b
    | .aslZpX b | .lsrZpX b | .rolZpX b | .rorZpX b | .andZpX b | .oraZpX b | .eorZpX b | .cmpZpX b
    => .zeroPageX b
  | .ldxZpY b | .stxZpY b => .zeroPageY b
  | .ldaAbs w | .ldxAbs w | .ldyAbs w | .staAbs w | .stxAbs w | .styAbs w | .adcAbs w | .sbcAbs w
    | .incAbs w | .decAbs w | .aslAbs w | .lsrAbs w | .rolAbs w | .rorAbs w | .andAbs w | .oraAbs w
    | .eorAbs w | .bitAbs w | .cmpAbs w | .cpxAbs w | .cpyAbs w | .jmpAbs w | .jsr w => .absolute w
  | .ldaAbsX w | .ldyAbsX w | .staAbsX w | .adcAbsX w | .sbcAbsX w | .incAbsX w | .decAbsX w
    | .aslAbsX w | .lsrAbsX w | .rolAbsX w | .rorAbsX w | .andAbsX w | .oraAbsX w | .eorAbsX w
    | .cmpAbsX w => .absoluteX w
  | .ldaAbsY w | .ldxAbsY w | .staAbsY w | .adcAbsY w | .sbcAbsY w | .andAbsY w | .oraAbsY w
    | .eorAbsY w | .cmpAbsY w => .absoluteY w
  | .bpl b | .bmi b | .bvc b | .bvs b | .bcc b | .bcs b | .bne b | .beq b => .relative b
  | .jmpInd w => .indirect w
  | .ldaIndX b | .staIndX b | .adcIndX b | .sbcIndX b | .andIndX b | .oraIndX b | .eorIndX b
    | .cmpIndX b => .indirectX b
  | .ldaIndY b | .staIndY b | .adcIndY b | .sbcIndY b | .andIndY b | .oraIndY b | .eorIndY b
    | .cmpIndY b => .indirectY b
  | .tax | .tay | .txa | .tya | .tsx | .txs | .inx | .iny | .dex | .dey | .aslAcc | .lsrAcc
    | .rolAcc | .rorAcc | .rts | .rti | .pha | .php | .pla | .plp | .clc | .sec | .cli | .sei
    | .clv | .cld | .sed | .nop => .implied
  | .brk => .noneAddressing

/-- The addressing-mode tag of an instruction's table entry (30_encoding.md R303, R307). -/
def Instr.mode (i : Instr) : Mode := i.operand.mode

/-- An instruction's length in bytes, the opcode and the mode's operand bytes (30_encoding.md R300, R301). -/
def Instr.length (i : Instr) : Nat := 1 + i.mode.operandWidth

end Sys2Proof
end

