-- ==== Sys2Proof/WellFormed.lean ====
section
/-! DEFINITION. The well-formedness checks: an operation's admitted addressing modes (30_encoding.md R306), and
the two arguments a host call may get wrong (60_exceptions.md R705, R706). -/

namespace Sys2Proof

/-- The addressing modes 30_encoding.md R306 gives each operation. -/
def Op.modes : Op → List Mode
  | .lda | .adc | .sbc | .and | .ora | .eor | .cmp =>
      [.immediate, .zeroPage, .zeroPageX, .absolute, .absoluteX, .absoluteY, .indirectX, .indirectY]
  | .ldx =>
      [.immediate, .zeroPage, .zeroPageY, .absolute, .absoluteY]
  | .ldy =>
      [.immediate, .zeroPage, .zeroPageX, .absolute, .absoluteX]
  | .sta =>
      [.zeroPage, .zeroPageX, .absolute, .absoluteX, .absoluteY, .indirectX, .indirectY]
  | .stx =>
      [.zeroPage, .zeroPageY, .absolute]
  | .sty =>
      [.zeroPage, .zeroPageX, .absolute]
  | .tax | .tay | .txa | .tya | .tsx | .txs | .inx | .iny | .dex | .dey | .rts | .rti | .pha | .php
  | .pla | .plp | .clc | .sec | .cli | .sei | .clv | .cld | .sed | .nop =>
      [.implied]
  | .inc | .dec =>
      [.zeroPage, .zeroPageX, .absolute, .absoluteX]
  | .asl | .lsr | .rol | .ror =>
      [.zeroPage, .zeroPageX, .absolute, .absoluteX, .implied]
  | .bit =>
      [.zeroPage, .absolute]
  | .cpx | .cpy =>
      [.immediate, .zeroPage, .absolute]
  | .bpl | .bmi | .bvc | .bvs | .bcc | .bcs | .bne | .beq =>
      [.relative]
  | .jmp =>
      [.absolute, .indirect]
  | .jsr =>
      [.absolute]
  | .brk =>
      [.noneAddressing]

/-- An operation and a mode form one of the 151 opcodes (30_encoding.md R303, R306). -/
def pairWellFormed (op : Op) (m : Mode) : Bool := op.modes.contains m

/-- An instruction is well formed when its operation has its addressing mode. Every term of Instr passes: Instr
has constructors for the 151 table rows only, and operand fields of exactly the encoded width. -/
def Instr.wellFormed (i : Instr) : Bool := pairWellFormed i.op i.mode

/-- A program `load` accepts (60_exceptions.md R706). -/
def programWellFormed (program : List Byte) : Bool := program.length ≤ maxProgramLength

/-- A mask `is_set` accepts (60_exceptions.md R705). -/
def maskWellFormed (mask : Byte) : Bool := mask != 0#8

end Sys2Proof
end

