-- ==== Sys2Proof/Machine/Flags.lean ====
section
/-! DEFINITION. The status register P: its bits, the access contract of 10_state.md R112, and every flag
computation of the instruction rules. -/

namespace Sys2Proof.Machine

/-- The eight bits of P, the seven named flags and the unused bit (10_state.md R110). -/
inductive Flag where
  | carry | zero | interruptDisable | decimalMode | brk | unused | overflow | negative
  deriving DecidableEq, Repr

/-- The bit position of a flag (10_state.md R110). -/
def Flag.bit : Flag → Nat
  | .carry => 0
  | .zero => 1
  | .interruptDisable => 2
  | .decimalMode => 3
  | .brk => 4
  | .unused => 5
  | .overflow => 6
  | .negative => 7

/-- The mask of a flag (10_state.md R110). -/
def Flag.mask (f : Flag) : Byte := 1#8 <<< f.bit

/-- `set(mask)`, the new P (10_state.md R112). -/
def setMask (mask p : Byte) : Byte := p ||| mask

/-- `clear(mask)`, the new P (10_state.md R112). -/
def clearMask (mask p : Byte) : Byte := p &&& ~~~mask

/-- `is_set(mask)`; mask 0 is the caller error ZeroFlagMask (10_state.md R112, 60_exceptions.md R705). -/
def isSetMask (mask p : Byte) : Except Refusal Bool :=
  if maskWellFormed mask then .ok (p &&& mask == mask) else .error .zeroFlagMask

/-- `P.f` read as a bit (00_scope.md R12). -/
def Flag.get (f : Flag) (p : Byte) : Bool := p.getLsbD f.bit

/-- `P.f <- cond` (00_scope.md R12). -/
def Flag.put (f : Flag) (cond : Bool) (p : Byte) : Byte :=
  if cond then setMask f.mask p else clearMask f.mask p

/-- P.C as a number, the carry in (43_arithmetic.md R482). -/
def carryIn (p : Byte) : Nat := (Flag.carry.get p).toNat

/-- `UpdateZN(v)` (40_execution_and_addressing.md R430). -/
def updateZN (v p : Byte) : Byte := Flag.negative.put (v.getLsbD 7) (Flag.zero.put (v == 0#8) p)

/-- `AddBinary(b)` on the accumulator a: the new A and the new P (43_arithmetic.md R482). -/
def addBinary (a b p : Byte) : Byte × Byte :=
  let s := a.toNat + b.toNat + carryIn p
  let r := BitVec.ofNat 8 s
  let p1 := Flag.carry.put (decide (s > 0xFF)) p
  let p2 := Flag.overflow.put (((a ^^^ r) &&& (b ^^^ r)) &&& 0x80#8 != 0#8) p1
  (r, updateZN r p2)

/-- The low-digit sum of `AddDecimal`, with its decimal adjustment (43_arithmetic.md R483). -/
def addDecimalLow (a m : Byte) (c : Nat) : Nat :=
  let al := (a &&& 0x0F#8).toNat + (m &&& 0x0F#8).toNat + c
  if al ≥ 0x0A then ((al + 0x06) &&& 0x0F) + 0x10 else al

/-- `AddDecimal(m)` on the accumulator a: the new A and the new P (43_arithmetic.md R483). -/
def addDecimal (a m p : Byte) : Byte × Byte :=
  let c := carryIn p
  let al := addDecimalLow a m c
  let s := (a &&& 0xF0#8).toNat + (m &&& 0xF0#8).toNat + al
  let t : Int := signed8 (a &&& 0xF0#8) + signed8 (m &&& 0xF0#8) + al
  let p1 := Flag.negative.put ((wrap8 t).getLsbD 7) p
  let p2 := Flag.overflow.put (decide (t < -128 ∨ t > 127)) p1
  let s1 := if s ≥ 0xA0 then s + 0x60 else s
  let p3 := Flag.carry.put (decide (s1 ≥ 0x100)) p2
  let p4 := Flag.zero.put (BitVec.ofNat 8 (a.toNat + m.toNat + c) == 0#8) p3
  (BitVec.ofNat 8 s1, p4)

/-- The low-digit difference of `SubDecimal`, with its decimal adjustment (43_arithmetic.md R484); `& 0x0F` of a
negative number is its low four bits in two's complement, the remainder modulo 16. -/
def subDecimalLow (a m : Byte) (c : Nat) : Int :=
  let al : Int := (a &&& 0x0F#8).toNat - (m &&& 0x0F#8).toNat + c - 1
  if al < 0 then (al - 0x06) % 16 - 0x10 else al

/-- `SubDecimal(m)` on the accumulator a: the new A and the new P (43_arithmetic.md R484). -/
def subDecimal (a m p : Byte) : Byte × Byte :=
  let c := carryIn p
  let s : Int := (a &&& 0xF0#8).toNat - (m &&& 0xF0#8).toNat + subDecimalLow a m c
  let s1 := if s < 0 then s - 0x60 else s
  let bs := a.toNat + (m ^^^ 0xFF#8).toNat + c
  let br := BitVec.ofNat 8 bs
  let p1 := Flag.carry.put (decide (bs > 0xFF)) p
  let p2 := Flag.overflow.put (((a ^^^ br) &&& ((m ^^^ 0xFF#8) ^^^ br)) &&& 0x80#8 != 0#8) p1
  let p3 := Flag.zero.put (br == 0#8) p2
  let p4 := Flag.negative.put (br.getLsbD 7) p3
  (wrap8 s1, p4)

/-- `Compare(r, m)`, the new P (46_logic_compare.md R544). -/
def compareFlags (r m p : Byte) : Byte :=
  let t := r - m
  let p1 := Flag.carry.put (decide (r.toNat ≥ m.toNat)) p
  let p2 := Flag.zero.put (r == m) p1
  Flag.negative.put (t.getLsbD 7) p2

/-- BIT's flags, the new P (46_logic_compare.md R543). -/
def bitFlags (a m p : Byte) : Byte :=
  let p1 := Flag.zero.put (a &&& m == 0#8) p
  let p2 := Flag.overflow.put (m.getLsbD 6) p1
  Flag.negative.put (m.getLsbD 7) p2

/-- INC's result and P (44_incdec.md R500). -/
def incByte (v p : Byte) : Byte × Byte := (v + 1#8, updateZN (v + 1#8) p)

/-- DEC's result and P (44_incdec.md R501). -/
def decByte (v p : Byte) : Byte × Byte := (v - 1#8, updateZN (v - 1#8) p)

/-- ASL's result and P (45_shift_rotate.md R520). -/
def aslByte (v p : Byte) : Byte × Byte :=
  let r := v <<< 1
  (r, updateZN r (Flag.carry.put (v.getLsbD 7) p))

/-- LSR's result and P (45_shift_rotate.md R521). -/
def lsrByte (v p : Byte) : Byte × Byte :=
  let r := v >>> 1
  (r, updateZN r (Flag.carry.put (v.getLsbD 0) p))

/-- ROL's result and P, the old carry into bit 0 (45_shift_rotate.md R522). -/
def rolByte (v p : Byte) : Byte × Byte :=
  let r := (v <<< 1) ||| BitVec.ofNat 8 (carryIn p)
  (r, updateZN r (Flag.carry.put (v.getLsbD 7) p))

/-- ROR's result and P, the old carry into bit 7 (45_shift_rotate.md R523). -/
def rorByte (v p : Byte) : Byte × Byte :=
  let r := (v >>> 1) ||| (BitVec.ofNat 8 (carryIn p) <<< 7)
  (r, updateZN r (Flag.carry.put (v.getLsbD 0) p))

/-- The byte PHP pushes, bits 4 and 5 as 1 (49_stack_flags.md R601). -/
def pushedStatus (p : Byte) : Byte := p ||| 0x30#8

/-- P after PLP or RTI pulls v, bits 5 and 4 keeping their value (49_stack_flags.md R603,
48_jump_subroutine.md R583). -/
def pulledStatus (v p : Byte) : Byte := (v &&& 0xCF#8) ||| (p &&& 0x30#8)

end Sys2Proof.Machine
end

