-- ==== Sys2Proof/Machine/Ops.lean ====
section
/-! DEFINITION. The named operations over memory and registers: the memory-port and stack primitives
(20_memory.md), register writes, and the three events that change the run state: the halt, the unknown opcode and
the host's reset (60_exceptions.md, 70_reset_and_hazards.md). -/

namespace Sys2Proof.Machine

/-- What an unlisted address reads as: `new` zeroes the whole memory (70_reset_and_hazards.md R800). -/
def Memory.unlisted : Byte := 0x00#8

/-- The canonical form: strictly rising addresses of the 64 KiB space, no entry equal to what an unlisted address
reads as. -/
abbrev Memory.wf (m : Memory) : Prop :=
  m.Pairwise (fun c d => c.1 < d.1) ∧ ∀ c ∈ m, c.1 < 0x10000 ∧ c.2 ≠ Memory.unlisted

/-- The byte at an address (20_memory.md R201). -/
def Memory.read : Memory → Nat → Byte
  | [], _ => Memory.unlisted
  | (k, v) :: m, addr => if k = addr then v else Memory.read m addr

/-- The memory with no entry for an address. -/
def Memory.erase (m : Memory) (addr : Nat) : Memory := m.filter (fun c => c.1 != addr)

/-- The memory with one more entry, before the first entry of a higher address. -/
def Memory.insert : Memory → Nat → Byte → Memory
  | [], addr, v => [(addr, v)]
  | (k, u) :: m, addr, v => if addr < k then (addr, v) :: (k, u) :: m else (k, u) :: Memory.insert m addr v

/-- The memory with byte v stored at an address, in canonical form (20_memory.md R202). -/
def Memory.write (m : Memory) (addr : Nat) (v : Byte) : Memory :=
  if v = Memory.unlisted then m.erase addr else (m.erase addr).insert addr v

namespace State

/-! Register writes: the one operation that changes each piece of state (00_scope.md R12). -/

/-- `PC <- v`. -/
def setPc (s : State) (v : Word) : State := { s with pc := v }
/-- `SP <- v`. -/
def setSp (s : State) (v : Byte) : State := { s with sp := v }
/-- `A <- v`. -/
def setA (s : State) (v : Byte) : State := { s with a := v }
/-- `X <- v`. -/
def setX (s : State) (v : Byte) : State := { s with x := v }
/-- `Y <- v`. -/
def setY (s : State) (v : Byte) : State := { s with y := v }
/-- `P <- v`. -/
def setP (s : State) (v : Byte) : State := { s with p := v }
/-- The memory replaced. -/
def setMem (s : State) (m : Memory) : State := { s with mem := m }
/-- `RS <- rs ; FR <- fr`. -/
def setRun (s : State) (rs : RunState) (fr : FaultRecord) : State := { s with rs := rs, fr := fr }
/-- One more diagnostic emitted (10_state.md R132). -/
def emit (s : State) (d : Diagnostic) : State := { s with diagnostics := s.diagnostics ++ [d] }

/-- PC advanced by n with 16-bit wrap (10_state.md R105). -/
def advance (s : State) (n : Nat) : State := s.setPc (s.pc + BitVec.ofNat 16 n)

/-- `MemRead(addr, 1)` (20_memory.md R201). -/
def read (s : State) (addr : Word) : Byte := s.mem.read addr.toNat

/-- `MemWrite(addr, 1, v)` (20_memory.md R202). -/
def write (s : State) (addr : Word) (v : Byte) : State := s.setMem (s.mem.write addr.toNat v)

/-- `MemRead(addr, 2)`, little-endian, the second byte at wrap16(addr + 1) (20_memory.md R203). -/
def read16 (s : State) (addr : Word) : Word := hiLo (s.read (addr + 1#16)) (s.read addr)

/-- `MemWrite(addr, 2, v)`, low byte first (20_memory.md R204). -/
def write16 (s : State) (addr : Word) (v : Word) : State :=
  (s.write addr (loByte v)).write (addr + 1#16) (hiByte v)

/-- `MemReadZP16(zp)`, the high byte's address wrapping within the zero page (20_memory.md R205). -/
def readZp16 (s : State) (zp : Byte) : Word := hiLo (s.read (zext16 (zp + 1#8))) (s.read (zext16 zp))

/-- The stack byte a stack pointer designates, 0x0100 + SP (10_state.md R104). -/
def stackAddr (sp : Byte) : Word := stackPage + zext16 sp

/-- `Push(v)` (20_memory.md R210). -/
def push (s : State) (v : Byte) : State := (s.write (stackAddr s.sp) v).setSp (s.sp - 1#8)

/-- `Pull()`: the byte and the state after it (20_memory.md R211). -/
def pull (s : State) : Byte × State :=
  let sp := s.sp + 1#8
  (s.read (stackAddr sp), s.setSp sp)

/-- `Push16(w)`, high byte first (20_memory.md R212). -/
def push16 (s : State) (w : Word) : State := (s.push (hiByte w)).push (loByte w)

/-- `Pull16()`, low byte first (20_memory.md R212). -/
def pull16 (s : State) : Word × State := (hiLo s.pull.2.pull.1 s.pull.1, s.pull.2.pull.2)

/-- `UpdateZN(v)` on the state (40_execution_and_addressing.md R430). -/
def flagZN (s : State) (v : Byte) : State := s.setP (updateZN v s.p)

/-- A and P replaced by an ALU result. -/
def setAP (s : State) (r : Byte × Byte) : State := (s.setA r.1).setP r.2

/-- A byte operation with its flags on the accumulator: `Src()` and `Dst(r)` are A (45_shift_rotate.md R524). -/
def modifyA (f : Byte → Byte → Byte × Byte) (s : State) : State := s.setAP (f s.a s.p)

/-- A byte operation with its flags on memory, one read then one write of ea (45_shift_rotate.md R524,
44_incdec.md R500, R501). -/
def modifyMem (f : Byte → Byte → Byte × Byte) (ea : Word) (s : State) : State :=
  (s.write ea (f (s.read ea) s.p).1).setP (f (s.read ea) s.p).2

/-- Whether ADC and SBC use decimal arithmetic (43_arithmetic.md R480, R481, R485). -/
def decimal (s : State) : Bool := Flag.decimalMode.get s.p && s.config.decimal == .nmos

/-- BRK's halt, `RS <- Halted ; FR <- Brk(at)` (48_jump_subroutine.md R584). -/
def halt (s : State) (addr : Word) : State := s.setRun .halted (.brk addr)

/-- `UnknownOpcode(op, at)` in the state after the opcode fetch: strict faults, permissive emits a diagnostic
(60_exceptions.md R702, R703). The saved record, the run state and PC are all the entry there is (R711). -/
def unknownOpcode (s : State) (op : Byte) (addr : Word) : State :=
  match s.config.unknownOpcode with
  | .strict => s.setRun .faulted (.illegalOpcode op addr)
  | .permissive => s.emit { op := op, addr := addr }

/-- The host's `reset()` (70_reset_and_hazards.md R802). -/
def hostReset (s : State) : State :=
  { s with
    pc := s.read16 resetVector, a := 0x00#8, x := 0x00#8, y := 0x00#8, sp := spAtReset, p := 0x00#8,
    rs := .running, fr := .none }

end State

end Sys2Proof.Machine
end

