-- ==== Sys2Proof/Machine/Operands.lean ====
section
/-! DEFINITION. The addressing-mode resolver: the effective address of each mode from its operand bytes
(40_execution_and_addressing.md R410 to R422). The operand bytes are the decoded instruction's (log entry 4). -/

namespace Sys2Proof.Machine

/-- Immediate: the address of the operand byte, one after the opcode's (R411). -/
def eaImmediate (s : State) : Word := s.pc + 1#16

/-- ZeroPage (R412). -/
def eaZeroPage (b : Byte) : Word := zext16 b

/-- ZeroPageX, 8-bit wrap (R413). -/
def eaZeroPageX (b : Byte) (s : State) : Word := zext16 (b + s.x)

/-- ZeroPageY, 8-bit wrap (R413). -/
def eaZeroPageY (b : Byte) (s : State) : Word := zext16 (b + s.y)

/-- AbsoluteX, 16-bit wrap (R416). -/
def eaAbsoluteX (w : Word) (s : State) : Word := w + zext16 s.x

/-- AbsoluteY, 16-bit wrap (R416). -/
def eaAbsoluteY (w : Word) (s : State) : Word := w + zext16 s.y

/-- Relative: the branch target, from the address after the offset byte (R417). -/
def eaRelative (off : Byte) (next : Word) : Word := next + sext16 off

/-- The address of an Indirect pointer's high byte, in the page of its low byte (R418). -/
def indirectHighAddr (ptr : Word) : Word := hiLo (hiByte ptr) (loByte ptr + 1#8)

/-- Indirect, JMP only (R418). -/
def eaIndirect (ptr : Word) (s : State) : Word := hiLo (s.read (indirectHighAddr ptr)) (s.read ptr)

/-- IndirectX (R420). -/
def eaIndirectX (b : Byte) (s : State) : Word := s.readZp16 (b + s.x)

/-- IndirectY (R421). -/
def eaIndirectY (b : Byte) (s : State) : Word := s.readZp16 b + zext16 s.y

/-- `Resolve(mode)`'s effective address of an instruction whose opcode is at the state's PC; None for the
operand-less modes (R410 to R422). Absolute's address is the operand itself (R414). -/
def operandEa (s : State) : Operand → Option Word
  | .immediate _ => some (eaImmediate s)
  | .zeroPage b => some (eaZeroPage b)
  | .zeroPageX b => some (eaZeroPageX b s)
  | .zeroPageY b => some (eaZeroPageY b s)
  | .absolute w => some w
  | .absoluteX w => some (eaAbsoluteX w s)
  | .absoluteY w => some (eaAbsoluteY w s)
  | .relative off => some (eaRelative off (s.pc + 2#16))
  | .indirect w => some (eaIndirect w s)
  | .indirectX b => some (eaIndirectX b s)
  | .indirectY b => some (eaIndirectY b s)
  | .implied => none
  | .noneAddressing => none

/-- `Operand()`, the byte a read instruction works on: the immediate byte, or the byte at the effective address
(R411, R423); None where an operation takes no memory operand. -/
def operandValue (s : State) : Operand → Option Byte
  | .immediate v => some v
  | .zeroPage b => some (s.read (eaZeroPage b))
  | .zeroPageX b => some (s.read (eaZeroPageX b s))
  | .zeroPageY b => some (s.read (eaZeroPageY b s))
  | .absolute w => some (s.read w)
  | .absoluteX w => some (s.read (eaAbsoluteX w s))
  | .absoluteY w => some (s.read (eaAbsoluteY w s))
  | .indirectX b => some (s.read (eaIndirectX b s))
  | .indirectY b => some (s.read (eaIndirectY b s))
  | .relative _ | .indirect _ | .implied | .noneAddressing => none

end Sys2Proof.Machine
end

