-- ==== Sys2Proof/Machine/Arithmetic.lean ====
section
/-! DEFINITION. Add and subtract with carry: ADC, SBC, binary and decimal (43_arithmetic.md). -/

namespace Sys2Proof.Machine

/-- ADC: decimal when P.D = 1 under Nmos, else binary (R480, R485). -/
def opAdc (m : Byte) (s : State) : State :=
  s.setAP (if s.decimal then addDecimal s.a m s.p else addBinary s.a m s.p)

/-- SBC: decimal when P.D = 1 under Nmos, else `AddBinary(~m)` (R481, R485). -/
def opSbc (m : Byte) (s : State) : State :=
  s.setAP (if s.decimal then subDecimal s.a m s.p else addBinary s.a (~~~m) s.p)

/-- `ADC #$nn` (R480). -/
def execAdcImm (b : Byte) (s : State) : StepResult := .next (opAdc b (s.advance 2))

/-- `ADC $nn` (R480). -/
def execAdcZp (b : Byte) (s : State) : StepResult := .next (opAdc (s.read (eaZeroPage b)) (s.advance 2))

/-- `ADC $nn,X` (R480). -/
def execAdcZpX (b : Byte) (s : State) : StepResult := .next (opAdc (s.read (eaZeroPageX b s)) (s.advance 2))

/-- `ADC $hhll` (R480). -/
def execAdcAbs (w : Word) (s : State) : StepResult := .next (opAdc (s.read w) (s.advance 3))

/-- `ADC $hhll,X` (R480). -/
def execAdcAbsX (w : Word) (s : State) : StepResult := .next (opAdc (s.read (eaAbsoluteX w s)) (s.advance 3))

/-- `ADC $hhll,Y` (R480). -/
def execAdcAbsY (w : Word) (s : State) : StepResult := .next (opAdc (s.read (eaAbsoluteY w s)) (s.advance 3))

/-- `ADC ($nn,X)` (R480). -/
def execAdcIndX (b : Byte) (s : State) : StepResult := .next (opAdc (s.read (eaIndirectX b s)) (s.advance 2))

/-- `ADC ($nn),Y` (R480). -/
def execAdcIndY (b : Byte) (s : State) : StepResult := .next (opAdc (s.read (eaIndirectY b s)) (s.advance 2))

/-- `SBC #$nn` (R481). -/
def execSbcImm (b : Byte) (s : State) : StepResult := .next (opSbc b (s.advance 2))

/-- `SBC $nn` (R481). -/
def execSbcZp (b : Byte) (s : State) : StepResult := .next (opSbc (s.read (eaZeroPage b)) (s.advance 2))

/-- `SBC $nn,X` (R481). -/
def execSbcZpX (b : Byte) (s : State) : StepResult := .next (opSbc (s.read (eaZeroPageX b s)) (s.advance 2))

/-- `SBC $hhll` (R481). -/
def execSbcAbs (w : Word) (s : State) : StepResult := .next (opSbc (s.read w) (s.advance 3))

/-- `SBC $hhll,X` (R481). -/
def execSbcAbsX (w : Word) (s : State) : StepResult := .next (opSbc (s.read (eaAbsoluteX w s)) (s.advance 3))

/-- `SBC $hhll,Y` (R481). -/
def execSbcAbsY (w : Word) (s : State) : StepResult := .next (opSbc (s.read (eaAbsoluteY w s)) (s.advance 3))

/-- `SBC ($nn,X)` (R481). -/
def execSbcIndX (b : Byte) (s : State) : StepResult := .next (opSbc (s.read (eaIndirectX b s)) (s.advance 2))

/-- `SBC ($nn),Y` (R481). -/
def execSbcIndY (b : Byte) (s : State) : StepResult := .next (opSbc (s.read (eaIndirectY b s)) (s.advance 2))

end Sys2Proof.Machine
end

