-- ==== Sys2Proof/Machine/Branch.lean ====
section
/-! DEFINITION. Conditional branches: BPL, BMI, BVC, BVS, BCC, BCS, BNE, BEQ (47_branch.md). -/

namespace Sys2Proof.Machine

/-- `if cond: PC <- ea`, in the state whose PC is the address after the offset byte (R560). -/
def opBranch (cond : Bool) (off : Byte) (s : State) : State :=
  if cond then s.setPc (eaRelative off s.pc) else s

/-- `BPL label` (R561). -/
def execBpl (off : Byte) (s : State) : StepResult := .next (opBranch (!Flag.negative.get s.p) off (s.advance 2))

/-- `BMI label` (R562). -/
def execBmi (off : Byte) (s : State) : StepResult := .next (opBranch (Flag.negative.get s.p) off (s.advance 2))

/-- `BVC label` (R563). -/
def execBvc (off : Byte) (s : State) : StepResult := .next (opBranch (!Flag.overflow.get s.p) off (s.advance 2))

/-- `BVS label` (R564). -/
def execBvs (off : Byte) (s : State) : StepResult := .next (opBranch (Flag.overflow.get s.p) off (s.advance 2))

/-- `BCC label` (R565). -/
def execBcc (off : Byte) (s : State) : StepResult := .next (opBranch (!Flag.carry.get s.p) off (s.advance 2))

/-- `BCS label` (R566). -/
def execBcs (off : Byte) (s : State) : StepResult := .next (opBranch (Flag.carry.get s.p) off (s.advance 2))

/-- `BNE label` (R567). -/
def execBne (off : Byte) (s : State) : StepResult := .next (opBranch (!Flag.zero.get s.p) off (s.advance 2))

/-- `BEQ label` (R568). -/
def execBeq (off : Byte) (s : State) : StepResult := .next (opBranch (Flag.zero.get s.p) off (s.advance 2))

end Sys2Proof.Machine
end

