-- ==== Sys2Proof/Machine/IncDec.lean ====
section
/-! DEFINITION. Increment and decrement: INC, DEC, INX, INY, DEX, DEY (44_incdec.md). -/

namespace Sys2Proof.Machine

/-- INC (R500). -/
def opInc (ea : Word) (s : State) : State := s.modifyMem incByte ea

/-- DEC (R501). -/
def opDec (ea : Word) (s : State) : State := s.modifyMem decByte ea

/-- `X <- wrap8(X + 1) ; UpdateZN(X)` (R502). -/
def opInx (s : State) : State := (s.setX (s.x + 1#8)).flagZN (s.x + 1#8)

/-- `Y <- wrap8(Y + 1) ; UpdateZN(Y)` (R503). -/
def opIny (s : State) : State := (s.setY (s.y + 1#8)).flagZN (s.y + 1#8)

/-- `X <- wrap8(X - 1) ; UpdateZN(X)` (R504). -/
def opDex (s : State) : State := (s.setX (s.x - 1#8)).flagZN (s.x - 1#8)

/-- `Y <- wrap8(Y - 1) ; UpdateZN(Y)` (R505). -/
def opDey (s : State) : State := (s.setY (s.y - 1#8)).flagZN (s.y - 1#8)

/-- `INC $nn` (R500). -/
def execIncZp (b : Byte) (s : State) : StepResult := .next (opInc (eaZeroPage b) (s.advance 2))

/-- `INC $nn,X` (R500). -/
def execIncZpX (b : Byte) (s : State) : StepResult := .next (opInc (eaZeroPageX b s) (s.advance 2))

/-- `INC $hhll` (R500). -/
def execIncAbs (w : Word) (s : State) : StepResult := .next (opInc w (s.advance 3))

/-- `INC $hhll,X` (R500). -/
def execIncAbsX (w : Word) (s : State) : StepResult := .next (opInc (eaAbsoluteX w s) (s.advance 3))

/-- `DEC $nn` (R501). -/
def execDecZp (b : Byte) (s : State) : StepResult := .next (opDec (eaZeroPage b) (s.advance 2))

/-- `DEC $nn,X` (R501). -/
def execDecZpX (b : Byte) (s : State) : StepResult := .next (opDec (eaZeroPageX b s) (s.advance 2))

/-- `DEC $hhll` (R501). -/
def execDecAbs (w : Word) (s : State) : StepResult := .next (opDec w (s.advance 3))

/-- `DEC $hhll,X` (R501). -/
def execDecAbsX (w : Word) (s : State) : StepResult := .next (opDec (eaAbsoluteX w s) (s.advance 3))

/-- `INX` (R502). -/
def execInx (s : State) : StepResult := .next (opInx (s.advance 1))

/-- `INY` (R503). -/
def execIny (s : State) : StepResult := .next (opIny (s.advance 1))

/-- `DEX` (R504). -/
def execDex (s : State) : StepResult := .next (opDex (s.advance 1))

/-- `DEY` (R505). -/
def execDey (s : State) : StepResult := .next (opDey (s.advance 1))

end Sys2Proof.Machine
end

