-- ==== Sys2Proof/Machine/Jump.lean ====
section
/-! DEFINITION. Jumps, subroutines, returns and BRK: JMP, JSR, RTS, RTI, BRK (48_jump_subroutine.md). -/

namespace Sys2Proof.Machine

/-- `PC <- ea` (R580). -/
def opJmp (ea : Word) (s : State) : State := s.setPc ea

/-- JSR: push PC - 1, the address of its last byte, then `PC <- ea` (R581). -/
def opJsr (ea : Word) (s : State) : State := (s.push16 (s.pc - 1#16)).setPc ea

/-- RTS: pull a word, PC is one more (R582). -/
def opRts (s : State) : State := s.pull16.2.setPc (s.pull16.1 + 1#16)

/-- RTI: pull P, bits 5 and 4 kept, then PC, with no increment (R583). -/
def opRti (s : State) : State :=
  let s1 := s.pull.2.setP (pulledStatus s.pull.1 s.p)
  s1.pull16.2.setPc s1.pull16.1

/-- `JMP $hhll` (R580). -/
def execJmpAbs (w : Word) (s : State) : StepResult := .next (opJmp w (s.advance 3))

/-- `JMP ($hhll)` (R580). -/
def execJmpInd (w : Word) (s : State) : StepResult := .next (opJmp (eaIndirect w s) (s.advance 3))

/-- `JSR $hhll` (R581). -/
def execJsr (w : Word) (s : State) : StepResult := .next (opJsr w (s.advance 3))

/-- `RTS` (R582). -/
def execRts (s : State) : StepResult := .next (opRts (s.advance 1))

/-- `RTI` (R583). -/
def execRti (s : State) : StepResult := .next (opRti (s.advance 1))

/-- `BRK` (R584). -/
def execBrk (s : State) : StepResult := .next ((s.advance 1).halt s.pc)

end Sys2Proof.Machine
end

