-- ==== Sys2Proof/Machine/LoadStore.lean ====
section
/-! DEFINITION. Loads and stores: LDA, LDX, LDY, STA, STX, STY (41_load_store.md). The shared `op` definitions are
the rules' `Execute`, run in the state after the resolver has advanced PC. -/

namespace Sys2Proof.Machine

/-- LDA: `A <- m ; UpdateZN(m)` (R440). -/
def opLda (m : Byte) (s : State) : State := (s.setA m).flagZN m

/-- LDX: `X <- m ; UpdateZN(m)` (R441). -/
def opLdx (m : Byte) (s : State) : State := (s.setX m).flagZN m

/-- LDY: `Y <- m ; UpdateZN(m)` (R442). -/
def opLdy (m : Byte) (s : State) : State := (s.setY m).flagZN m

/-- STA: `MemWrite(ea, 1, A)` (R443). -/
def opSta (ea : Word) (s : State) : State := s.write ea s.a

/-- STX: `MemWrite(ea, 1, X)` (R444). -/
def opStx (ea : Word) (s : State) : State := s.write ea s.x

/-- STY: `MemWrite(ea, 1, Y)` (R445). -/
def opSty (ea : Word) (s : State) : State := s.write ea s.y

/-- `LDA #$nn` (R440). -/
def execLdaImm (b : Byte) (s : State) : StepResult := .next (opLda b (s.advance 2))

/-- `LDA $nn` (R440). -/
def execLdaZp (b : Byte) (s : State) : StepResult := .next (opLda (s.read (eaZeroPage b)) (s.advance 2))

/-- `LDA $nn,X` (R440). -/
def execLdaZpX (b : Byte) (s : State) : StepResult := .next (opLda (s.read (eaZeroPageX b s)) (s.advance 2))

/-- `LDA $hhll` (R440). -/
def execLdaAbs (w : Word) (s : State) : StepResult := .next (opLda (s.read w) (s.advance 3))

/-- `LDA $hhll,X` (R440). -/
def execLdaAbsX (w : Word) (s : State) : StepResult := .next (opLda (s.read (eaAbsoluteX w s)) (s.advance 3))

/-- `LDA $hhll,Y` (R440). -/
def execLdaAbsY (w : Word) (s : State) : StepResult := .next (opLda (s.read (eaAbsoluteY w s)) (s.advance 3))

/-- `LDA ($nn,X)` (R440). -/
def execLdaIndX (b : Byte) (s : State) : StepResult := .next (opLda (s.read (eaIndirectX b s)) (s.advance 2))

/-- `LDA ($nn),Y` (R440). -/
def execLdaIndY (b : Byte) (s : State) : StepResult := .next (opLda (s.read (eaIndirectY b s)) (s.advance 2))

/-- `LDX #$nn` (R441). -/
def execLdxImm (b : Byte) (s : State) : StepResult := .next (opLdx b (s.advance 2))

/-- `LDX $nn` (R441). -/
def execLdxZp (b : Byte) (s : State) : StepResult := .next (opLdx (s.read (eaZeroPage b)) (s.advance 2))

/-- `LDX $nn,Y` (R441). -/
def execLdxZpY (b : Byte) (s : State) : StepResult := .next (opLdx (s.read (eaZeroPageY b s)) (s.advance 2))

/-- `LDX $hhll` (R441). -/
def execLdxAbs (w : Word) (s : State) : StepResult := .next (opLdx (s.read w) (s.advance 3))

/-- `LDX $hhll,Y` (R441). -/
def execLdxAbsY (w : Word) (s : State) : StepResult := .next (opLdx (s.read (eaAbsoluteY w s)) (s.advance 3))

/-- `LDY #$nn` (R442). -/
def execLdyImm (b : Byte) (s : State) : StepResult := .next (opLdy b (s.advance 2))

/-- `LDY $nn` (R442). -/
def execLdyZp (b : Byte) (s : State) : StepResult := .next (opLdy (s.read (eaZeroPage b)) (s.advance 2))

/-- `LDY $nn,X` (R442). -/
def execLdyZpX (b : Byte) (s : State) : StepResult := .next (opLdy (s.read (eaZeroPageX b s)) (s.advance 2))

/-- `LDY $hhll` (R442). -/
def execLdyAbs (w : Word) (s : State) : StepResult := .next (opLdy (s.read w) (s.advance 3))

/-- `LDY $hhll,X` (R442). -/
def execLdyAbsX (w : Word) (s : State) : StepResult := .next (opLdy (s.read (eaAbsoluteX w s)) (s.advance 3))

/-- `STA $nn` (R443). -/
def execStaZp (b : Byte) (s : State) : StepResult := .next (opSta (eaZeroPage b) (s.advance 2))

/-- `STA $nn,X` (R443). -/
def execStaZpX (b : Byte) (s : State) : StepResult := .next (opSta (eaZeroPageX b s) (s.advance 2))

/-- `STA $hhll` (R443). -/
def execStaAbs (w : Word) (s : State) : StepResult := .next (opSta w (s.advance 3))

/-- `STA $hhll,X` (R443). -/
def execStaAbsX (w : Word) (s : State) : StepResult := .next (opSta (eaAbsoluteX w s) (s.advance 3))

/-- `STA $hhll,Y` (R443). -/
def execStaAbsY (w : Word) (s : State) : StepResult := .next (opSta (eaAbsoluteY w s) (s.advance 3))

/-- `STA ($nn,X)` (R443). -/
def execStaIndX (b : Byte) (s : State) : StepResult := .next (opSta (eaIndirectX b s) (s.advance 2))

/-- `STA ($nn),Y` (R443). -/
def execStaIndY (b : Byte) (s : State) : StepResult := .next (opSta (eaIndirectY b s) (s.advance 2))

/-- `STX $nn` (R444). -/
def execStxZp (b : Byte) (s : State) : StepResult := .next (opStx (eaZeroPage b) (s.advance 2))

/-- `STX $nn,Y` (R444). -/
def execStxZpY (b : Byte) (s : State) : StepResult := .next (opStx (eaZeroPageY b s) (s.advance 2))

/-- `STX $hhll` (R444). -/
def execStxAbs (w : Word) (s : State) : StepResult := .next (opStx w (s.advance 3))

/-- `STY $nn` (R445). -/
def execStyZp (b : Byte) (s : State) : StepResult := .next (opSty (eaZeroPage b) (s.advance 2))

/-- `STY $nn,X` (R445). -/
def execStyZpX (b : Byte) (s : State) : StepResult := .next (opSty (eaZeroPageX b s) (s.advance 2))

/-- `STY $hhll` (R445). -/
def execStyAbs (w : Word) (s : State) : StepResult := .next (opSty w (s.advance 3))

end Sys2Proof.Machine
end

