-- ==== Sys2Proof/Machine/Logic.lean ====
section
/-! DEFINITION. Logical operations, bit test and compares: AND, ORA, EOR, BIT, CMP, CPX, CPY (46_logic_compare.md). -/

namespace Sys2Proof.Machine

/-- `A <- A & m ; UpdateZN(A)` (R540). -/
def opAnd (m : Byte) (s : State) : State := (s.setA (s.a &&& m)).flagZN (s.a &&& m)

/-- `A <- A | m ; UpdateZN(A)` (R541). -/
def opOra (m : Byte) (s : State) : State := (s.setA (s.a ||| m)).flagZN (s.a ||| m)

/-- `A <- A ^ m ; UpdateZN(A)` (R542). -/
def opEor (m : Byte) (s : State) : State := (s.setA (s.a ^^^ m)).flagZN (s.a ^^^ m)

/-- BIT (R543). -/
def opBit (m : Byte) (s : State) : State := s.setP (bitFlags s.a m s.p)

/-- `Compare(A, m)` (R545). -/
def opCmp (m : Byte) (s : State) : State := s.setP (compareFlags s.a m s.p)

/-- `Compare(X, m)` (R546). -/
def opCpx (m : Byte) (s : State) : State := s.setP (compareFlags s.x m s.p)

/-- `Compare(Y, m)` (R547). -/
def opCpy (m : Byte) (s : State) : State := s.setP (compareFlags s.y m s.p)

/-- `AND #$nn` (R540). -/
def execAndImm (b : Byte) (s : State) : StepResult := .next (opAnd b (s.advance 2))

/-- `AND $nn` (R540). -/
def execAndZp (b : Byte) (s : State) : StepResult := .next (opAnd (s.read (eaZeroPage b)) (s.advance 2))

/-- `AND $nn,X` (R540). -/
def execAndZpX (b : Byte) (s : State) : StepResult := .next (opAnd (s.read (eaZeroPageX b s)) (s.advance 2))

/-- `AND $hhll` (R540). -/
def execAndAbs (w : Word) (s : State) : StepResult := .next (opAnd (s.read w) (s.advance 3))

/-- `AND $hhll,X` (R540). -/
def execAndAbsX (w : Word) (s : State) : StepResult := .next (opAnd (s.read (eaAbsoluteX w s)) (s.advance 3))

/-- `AND $hhll,Y` (R540). -/
def execAndAbsY (w : Word) (s : State) : StepResult := .next (opAnd (s.read (eaAbsoluteY w s)) (s.advance 3))

/-- `AND ($nn,X)` (R540). -/
def execAndIndX (b : Byte) (s : State) : StepResult := .next (opAnd (s.read (eaIndirectX b s)) (s.advance 2))

/-- `AND ($nn),Y` (R540). -/
def execAndIndY (b : Byte) (s : State) : StepResult := .next (opAnd (s.read (eaIndirectY b s)) (s.advance 2))

/-- `ORA #$nn` (R541). -/
def execOraImm (b : Byte) (s : State) : StepResult := .next (opOra b (s.advance 2))

/-- `ORA $nn` (R541). -/
def execOraZp (b : Byte) (s : State) : StepResult := .next (opOra (s.read (eaZeroPage b)) (s.advance 2))

/-- `ORA $nn,X` (R541). -/
def execOraZpX (b : Byte) (s : State) : StepResult := .next (opOra (s.read (eaZeroPageX b s)) (s.advance 2))

/-- `ORA $hhll` (R541). -/
def execOraAbs (w : Word) (s : State) : StepResult := .next (opOra (s.read w) (s.advance 3))

/-- `ORA $hhll,X` (R541). -/
def execOraAbsX (w : Word) (s : State) : StepResult := .next (opOra (s.read (eaAbsoluteX w s)) (s.advance 3))

/-- `ORA $hhll,Y` (R541). -/
def execOraAbsY (w : Word) (s : State) : StepResult := .next (opOra (s.read (eaAbsoluteY w s)) (s.advance 3))

/-- `ORA ($nn,X)` (R541). -/
def execOraIndX (b : Byte) (s : State) : StepResult := .next (opOra (s.read (eaIndirectX b s)) (s.advance 2))

/-- `ORA ($nn),Y` (R541). -/
def execOraIndY (b : Byte) (s : State) : StepResult := .next (opOra (s.read (eaIndirectY b s)) (s.advance 2))

/-- `EOR #$nn` (R542). -/
def execEorImm (b : Byte) (s : State) : StepResult := .next (opEor b (s.advance 2))

/-- `EOR $nn` (R542). -/
def execEorZp (b : Byte) (s : State) : StepResult := .next (opEor (s.read (eaZeroPage b)) (s.advance 2))

/-- `EOR $nn,X` (R542). -/
def execEorZpX (b : Byte) (s : State) : StepResult := .next (opEor (s.read (eaZeroPageX b s)) (s.advance 2))

/-- `EOR $hhll` (R542). -/
def execEorAbs (w : Word) (s : State) : StepResult := .next (opEor (s.read w) (s.advance 3))

/-- `EOR $hhll,X` (R542). -/
def execEorAbsX (w : Word) (s : State) : StepResult := .next (opEor (s.read (eaAbsoluteX w s)) (s.advance 3))

/-- `EOR $hhll,Y` (R542). -/
def execEorAbsY (w : Word) (s : State) : StepResult := .next (opEor (s.read (eaAbsoluteY w s)) (s.advance 3))

/-- `EOR ($nn,X)` (R542). -/
def execEorIndX (b : Byte) (s : State) : StepResult := .next (opEor (s.read (eaIndirectX b s)) (s.advance 2))

/-- `EOR ($nn),Y` (R542). -/
def execEorIndY (b : Byte) (s : State) : StepResult := .next (opEor (s.read (eaIndirectY b s)) (s.advance 2))

/-- `BIT $nn` (R543). -/
def execBitZp (b : Byte) (s : State) : StepResult := .next (opBit (s.read (eaZeroPage b)) (s.advance 2))

/-- `BIT $hhll` (R543). -/
def execBitAbs (w : Word) (s : State) : StepResult := .next (opBit (s.read w) (s.advance 3))

/-- `CMP #$nn` (R545). -/
def execCmpImm (b : Byte) (s : State) : StepResult := .next (opCmp b (s.advance 2))

/-- `CMP $nn` (R545). -/
def execCmpZp (b : Byte) (s : State) : StepResult := .next (opCmp (s.read (eaZeroPage b)) (s.advance 2))

/-- `CMP $nn,X` (R545). -/
def execCmpZpX (b : Byte) (s : State) : StepResult := .next (opCmp (s.read (eaZeroPageX b s)) (s.advance 2))

/-- `CMP $hhll` (R545). -/
def execCmpAbs (w : Word) (s : State) : StepResult := .next (opCmp (s.read w) (s.advance 3))

/-- `CMP $hhll,X` (R545). -/
def execCmpAbsX (w : Word) (s : State) : StepResult := .next (opCmp (s.read (eaAbsoluteX w s)) (s.advance 3))

/-- `CMP $hhll,Y` (R545). -/
def execCmpAbsY (w : Word) (s : State) : StepResult := .next (opCmp (s.read (eaAbsoluteY w s)) (s.advance 3))

/-- `CMP ($nn,X)` (R545). -/
def execCmpIndX (b : Byte) (s : State) : StepResult := .next (opCmp (s.read (eaIndirectX b s)) (s.advance 2))

/-- `CMP ($nn),Y` (R545). -/
def execCmpIndY (b : Byte) (s : State) : StepResult := .next (opCmp (s.read (eaIndirectY b s)) (s.advance 2))

/-- `CPX #$nn` (R546). -/
def execCpxImm (b : Byte) (s : State) : StepResult := .next (opCpx b (s.advance 2))

/-- `CPX $nn` (R546). -/
def execCpxZp (b : Byte) (s : State) : StepResult := .next (opCpx (s.read (eaZeroPage b)) (s.advance 2))

/-- `CPX $hhll` (R546). -/
def execCpxAbs (w : Word) (s : State) : StepResult := .next (opCpx (s.read w) (s.advance 3))

/-- `CPY #$nn` (R547). -/
def execCpyImm (b : Byte) (s : State) : StepResult := .next (opCpy b (s.advance 2))

/-- `CPY $nn` (R547). -/
def execCpyZp (b : Byte) (s : State) : StepResult := .next (opCpy (s.read (eaZeroPage b)) (s.advance 2))

/-- `CPY $hhll` (R547). -/
def execCpyAbs (w : Word) (s : State) : StepResult := .next (opCpy (s.read w) (s.advance 3))

end Sys2Proof.Machine
end

