-- ==== Sys2Proof/Machine/Shift.lean ====
section
/-! DEFINITION. Shifts and rotates: ASL, LSR, ROL, ROR on the accumulator or on memory (45_shift_rotate.md). -/

namespace Sys2Proof.Machine

/-- ASL, accumulator form (R520, R524). -/
def opAslAcc (s : State) : State := s.modifyA aslByte

/-- ASL, memory forms (R520, R524). -/
def opAsl (ea : Word) (s : State) : State := s.modifyMem aslByte ea

/-- LSR, accumulator form (R521, R524). -/
def opLsrAcc (s : State) : State := s.modifyA lsrByte

/-- LSR, memory forms (R521, R524). -/
def opLsr (ea : Word) (s : State) : State := s.modifyMem lsrByte ea

/-- ROL, accumulator form (R522, R524). -/
def opRolAcc (s : State) : State := s.modifyA rolByte

/-- ROL, memory forms (R522, R524). -/
def opRol (ea : Word) (s : State) : State := s.modifyMem rolByte ea

/-- ROR, accumulator form (R523, R524). -/
def opRorAcc (s : State) : State := s.modifyA rorByte

/-- ROR, memory forms (R523, R524). -/
def opRor (ea : Word) (s : State) : State := s.modifyMem rorByte ea

/-- `ASL $nn` (R520). -/
def execAslZp (b : Byte) (s : State) : StepResult := .next (opAsl (eaZeroPage b) (s.advance 2))

/-- `ASL $nn,X` (R520). -/
def execAslZpX (b : Byte) (s : State) : StepResult := .next (opAsl (eaZeroPageX b s) (s.advance 2))

/-- `ASL $hhll` (R520). -/
def execAslAbs (w : Word) (s : State) : StepResult := .next (opAsl w (s.advance 3))

/-- `ASL $hhll,X` (R520). -/
def execAslAbsX (w : Word) (s : State) : StepResult := .next (opAsl (eaAbsoluteX w s) (s.advance 3))

/-- `ASL A` (R520). -/
def execAslAcc (s : State) : StepResult := .next (opAslAcc (s.advance 1))

/-- `LSR $nn` (R521). -/
def execLsrZp (b : Byte) (s : State) : StepResult := .next (opLsr (eaZeroPage b) (s.advance 2))

/-- `LSR $nn,X` (R521). -/
def execLsrZpX (b : Byte) (s : State) : StepResult := .next (opLsr (eaZeroPageX b s) (s.advance 2))

/-- `LSR $hhll` (R521). -/
def execLsrAbs (w : Word) (s : State) : StepResult := .next (opLsr w (s.advance 3))

/-- `LSR $hhll,X` (R521). -/
def execLsrAbsX (w : Word) (s : State) : StepResult := .next (opLsr (eaAbsoluteX w s) (s.advance 3))

/-- `LSR A` (R521). -/
def execLsrAcc (s : State) : StepResult := .next (opLsrAcc (s.advance 1))

/-- `ROL $nn` (R522). -/
def execRolZp (b : Byte) (s : State) : StepResult := .next (opRol (eaZeroPage b) (s.advance 2))

/-- `ROL $nn,X` (R522). -/
def execRolZpX (b : Byte) (s : State) : StepResult := .next (opRol (eaZeroPageX b s) (s.advance 2))

/-- `ROL $hhll` (R522). -/
def execRolAbs (w : Word) (s : State) : StepResult := .next (opRol w (s.advance 3))

/-- `ROL $hhll,X` (R522). -/
def execRolAbsX (w : Word) (s : State) : StepResult := .next (opRol (eaAbsoluteX w s) (s.advance 3))

/-- `ROL A` (R522). -/
def execRolAcc (s : State) : StepResult := .next (opRolAcc (s.advance 1))

/-- `ROR $nn` (R523). -/
def execRorZp (b : Byte) (s : State) : StepResult := .next (opRor (eaZeroPage b) (s.advance 2))

/-- `ROR $nn,X` (R523). -/
def execRorZpX (b : Byte) (s : State) : StepResult := .next (opRor (eaZeroPageX b s) (s.advance 2))

/-- `ROR $hhll` (R523). -/
def execRorAbs (w : Word) (s : State) : StepResult := .next (opRor w (s.advance 3))

/-- `ROR $hhll,X` (R523). -/
def execRorAbsX (w : Word) (s : State) : StepResult := .next (opRor (eaAbsoluteX w s) (s.advance 3))

/-- `ROR A` (R523). -/
def execRorAcc (s : State) : StepResult := .next (opRorAcc (s.advance 1))

end Sys2Proof.Machine
end

