-- ==== Sys2Proof/Machine/StackFlags.lean ====
section
/-! DEFINITION. Stack operations, flag instructions and NOP: PHA, PHP, PLA, PLP, CLC, SEC, CLI, SEI, CLV, CLD, SED, NOP
(49_stack_flags.md). -/

namespace Sys2Proof.Machine

/-- `Push(A)` (R600). -/
def opPha (s : State) : State := s.push s.a

/-- `Push(P | 0x30)` (R601). -/
def opPhp (s : State) : State := s.push (pushedStatus s.p)

/-- `A <- Pull() ; UpdateZN(A)` (R602). -/
def opPla (s : State) : State := (s.pull.2.setA s.pull.1).flagZN s.pull.1

/-- PLP: P from the pulled byte, bits 5 and 4 kept (R603). -/
def opPlp (s : State) : State := s.pull.2.setP (pulledStatus s.pull.1 s.p)

/-- `P.C <- 0` (R610). -/
def opClc (s : State) : State := s.setP (Flag.carry.put false s.p)

/-- `P.C <- 1` (R611). -/
def opSec (s : State) : State := s.setP (Flag.carry.put true s.p)

/-- `P.I <- 0` (R612). -/
def opCli (s : State) : State := s.setP (Flag.interruptDisable.put false s.p)

/-- `P.I <- 1` (R613). -/
def opSei (s : State) : State := s.setP (Flag.interruptDisable.put true s.p)

/-- `P.V <- 0` (R614). -/
def opClv (s : State) : State := s.setP (Flag.overflow.put false s.p)

/-- `P.D <- 0` (R615). -/
def opCld (s : State) : State := s.setP (Flag.decimalMode.put false s.p)

/-- `P.D <- 1` (R616). -/
def opSed (s : State) : State := s.setP (Flag.decimalMode.put true s.p)

/-- NOP: nothing is written (R620). -/
def opNop (s : State) : State := s

/-- `PHA` (R600). -/
def execPha (s : State) : StepResult := .next (opPha (s.advance 1))

/-- `PHP` (R601). -/
def execPhp (s : State) : StepResult := .next (opPhp (s.advance 1))

/-- `PLA` (R602). -/
def execPla (s : State) : StepResult := .next (opPla (s.advance 1))

/-- `PLP` (R603). -/
def execPlp (s : State) : StepResult := .next (opPlp (s.advance 1))

/-- `CLC` (R610). -/
def execClc (s : State) : StepResult := .next (opClc (s.advance 1))

/-- `SEC` (R611). -/
def execSec (s : State) : StepResult := .next (opSec (s.advance 1))

/-- `CLI` (R612). -/
def execCli (s : State) : StepResult := .next (opCli (s.advance 1))

/-- `SEI` (R613). -/
def execSei (s : State) : StepResult := .next (opSei (s.advance 1))

/-- `CLV` (R614). -/
def execClv (s : State) : StepResult := .next (opClv (s.advance 1))

/-- `CLD` (R615). -/
def execCld (s : State) : StepResult := .next (opCld (s.advance 1))

/-- `SED` (R616). -/
def execSed (s : State) : StepResult := .next (opSed (s.advance 1))

/-- `NOP` (R620). -/
def execNop (s : State) : StepResult := .next (opNop (s.advance 1))

end Sys2Proof.Machine
end

