-- ==== Sys2Proof/Machine/Transfer.lean ====
section
/-! DEFINITION. Register transfers: TAX, TAY, TXA, TYA, TSX, TXS (42_transfer.md). -/

namespace Sys2Proof.Machine

/-- `X <- A ; UpdateZN(X)` (R460). -/
def opTax (s : State) : State := (s.setX s.a).flagZN s.a

/-- `Y <- A ; UpdateZN(Y)` (R461). -/
def opTay (s : State) : State := (s.setY s.a).flagZN s.a

/-- `A <- X ; UpdateZN(A)` (R462). -/
def opTxa (s : State) : State := (s.setA s.x).flagZN s.x

/-- `A <- Y ; UpdateZN(A)` (R463). -/
def opTya (s : State) : State := (s.setA s.y).flagZN s.y

/-- `X <- SP ; UpdateZN(X)` (R464). -/
def opTsx (s : State) : State := (s.setX s.sp).flagZN s.sp

/-- `SP <- X`, no flag (R465). -/
def opTxs (s : State) : State := s.setSp s.x

/-- `TAX` (R460). -/
def execTax (s : State) : StepResult := .next (opTax (s.advance 1))

/-- `TAY` (R461). -/
def execTay (s : State) : StepResult := .next (opTay (s.advance 1))

/-- `TXA` (R462). -/
def execTxa (s : State) : StepResult := .next (opTxa (s.advance 1))

/-- `TYA` (R463). -/
def execTya (s : State) : StepResult := .next (opTya (s.advance 1))

/-- `TSX` (R464). -/
def execTsx (s : State) : StepResult := .next (opTsx (s.advance 1))

/-- `TXS` (R465). -/
def execTxs (s : State) : StepResult := .next (opTxs (s.advance 1))

end Sys2Proof.Machine
end

