-- ==== Sys2Proof/Decode.lean ====
section
/-! DEFINITION. Decoding and encoding. The decoder is written from the opcode map of 30_encoding.md R305 and is
total on any bytes; the encoder is written from the per-operation table of R306. -/

namespace Sys2Proof

/-- An entry of the opcode table, "{operation tag, addressing mode tag} pairs or Unknown" (30_encoding.md R303):
the operation tag is that of the instruction the entry builds, the operand bytes are those of the mode. -/
inductive Entry where
  | unknown
  | noOperand (m : Mode) (i : Instr)
  | byteOperand (m : Mode) (build : Byte → Instr)
  | wordOperand (m : Mode) (build : Word → Instr)

namespace Entry

/-! The cells of R305's map, named as the map writes them. -/

def bare (i : Instr) : Entry := .noOperand .noneAddressing i
def impl (i : Instr) : Entry := .noOperand .implied i
def imm (build : Byte → Instr) : Entry := .byteOperand .immediate build
def zp (build : Byte → Instr) : Entry := .byteOperand .zeroPage build
def zpX (build : Byte → Instr) : Entry := .byteOperand .zeroPageX build
def zpY (build : Byte → Instr) : Entry := .byteOperand .zeroPageY build
def rel (build : Byte → Instr) : Entry := .byteOperand .relative build
def indX (build : Byte → Instr) : Entry := .byteOperand .indirectX build
def indY (build : Byte → Instr) : Entry := .byteOperand .indirectY build
def abs (build : Word → Instr) : Entry := .wordOperand .absolute build
def absX (build : Word → Instr) : Entry := .wordOperand .absoluteX build
def absY (build : Word → Instr) : Entry := .wordOperand .absoluteY build
def ind (build : Word → Instr) : Entry := .wordOperand .indirect build

/-- The instruction an entry builds from the two bytes after the opcode, of which it uses the mode's operand
width; none for Unknown (40_execution_and_addressing.md R410, 30_encoding.md R302). -/
def instr : Entry → Byte → Byte → Option Instr
  | .unknown, _, _ => none
  | .noOperand _ i, _, _ => some i
  | .byteOperand _ build, b1, _ => some (build b1)
  | .wordOperand _ build, b1, b2 => some (build (hiLo b2 b1))

/-- The mode tag of an entry; none for Unknown. -/
def mode : Entry → Option Mode
  | .unknown => none
  | .noOperand m _ | .byteOperand m _ | .wordOperand m _ => some m

end Entry

/-- Row 0x of the opcode map (30_encoding.md R305). -/
def mapRow0 : List Entry :=
  [.bare .brk, .indX .oraIndX, .unknown, .unknown, .unknown, .zp .oraZp, .zp .aslZp, .unknown,
   .impl .php, .imm .oraImm, .impl .aslAcc, .unknown, .unknown, .abs .oraAbs, .abs .aslAbs,
   .unknown]

/-- Row 1x of the opcode map (30_encoding.md R305). -/
def mapRow1 : List Entry :=
  [.rel .bpl, .indY .oraIndY, .unknown, .unknown, .unknown, .zpX .oraZpX, .zpX .aslZpX, .unknown,
   .impl .clc, .absY .oraAbsY, .unknown, .unknown, .unknown, .absX .oraAbsX, .absX .aslAbsX,
   .unknown]

/-- Row 2x of the opcode map (30_encoding.md R305). -/
def mapRow2 : List Entry :=
  [.abs .jsr, .indX .andIndX, .unknown, .unknown, .zp .bitZp, .zp .andZp, .zp .rolZp, .unknown,
   .impl .plp, .imm .andImm, .impl .rolAcc, .unknown, .abs .bitAbs, .abs .andAbs, .abs .rolAbs,
   .unknown]

/-- Row 3x of the opcode map (30_encoding.md R305). -/
def mapRow3 : List Entry :=
  [.rel .bmi, .indY .andIndY, .unknown, .unknown, .unknown, .zpX .andZpX, .zpX .rolZpX, .unknown,
   .impl .sec, .absY .andAbsY, .unknown, .unknown, .unknown, .absX .andAbsX, .absX .rolAbsX,
   .unknown]

/-- Row 4x of the opcode map (30_encoding.md R305). -/
def mapRow4 : List Entry :=
  [.impl .rti, .indX .eorIndX, .unknown, .unknown, .unknown, .zp .eorZp, .zp .lsrZp, .unknown,
   .impl .pha, .imm .eorImm, .impl .lsrAcc, .unknown, .abs .jmpAbs, .abs .eorAbs, .abs .lsrAbs,
   .unknown]

/-- Row 5x of the opcode map (30_encoding.md R305). -/
def mapRow5 : List Entry :=
  [.rel .bvc, .indY .eorIndY, .unknown, .unknown, .unknown, .zpX .eorZpX, .zpX .lsrZpX, .unknown,
   .impl .cli, .absY .eorAbsY, .unknown, .unknown, .unknown, .absX .eorAbsX, .absX .lsrAbsX,
   .unknown]

/-- Row 6x of the opcode map (30_encoding.md R305). -/
def mapRow6 : List Entry :=
  [.impl .rts, .indX .adcIndX, .unknown, .unknown, .unknown, .zp .adcZp, .zp .rorZp, .unknown,
   .impl .pla, .imm .adcImm, .impl .rorAcc, .unknown, .ind .jmpInd, .abs .adcAbs, .abs .rorAbs,
   .unknown]

/-- Row 7x of the opcode map (30_encoding.md R305). -/
def mapRow7 : List Entry :=
  [.rel .bvs, .indY .adcIndY, .unknown, .unknown, .unknown, .zpX .adcZpX, .zpX .rorZpX, .unknown,
   .impl .sei, .absY .adcAbsY, .unknown, .unknown, .unknown, .absX .adcAbsX, .absX .rorAbsX,
   .unknown]

/-- Row 8x of the opcode map (30_encoding.md R305). -/
def mapRow8 : List Entry :=
  [.unknown, .indX .staIndX, .unknown, .unknown, .zp .styZp, .zp .staZp, .zp .stxZp, .unknown,
   .impl .dey, .unknown, .impl .txa, .unknown, .abs .styAbs, .abs .staAbs, .abs .stxAbs, .unknown]

/-- Row 9x of the opcode map (30_encoding.md R305). -/
def mapRow9 : List Entry :=
  [.rel .bcc, .indY .staIndY, .unknown, .unknown, .zpX .styZpX, .zpX .staZpX, .zpY .stxZpY,
   .unknown, .impl .tya, .absY .staAbsY, .impl .txs, .unknown, .unknown, .absX .staAbsX, .unknown,
   .unknown]

/-- Row Ax of the opcode map (30_encoding.md R305). -/
def mapRowA : List Entry :=
  [.imm .ldyImm, .indX .ldaIndX, .imm .ldxImm, .unknown, .zp .ldyZp, .zp .ldaZp, .zp .ldxZp,
   .unknown, .impl .tay, .imm .ldaImm, .impl .tax, .unknown, .abs .ldyAbs, .abs .ldaAbs,
   .abs .ldxAbs, .unknown]

/-- Row Bx of the opcode map (30_encoding.md R305). -/
def mapRowB : List Entry :=
  [.rel .bcs, .indY .ldaIndY, .unknown, .unknown, .zpX .ldyZpX, .zpX .ldaZpX, .zpY .ldxZpY,
   .unknown, .impl .clv, .absY .ldaAbsY, .impl .tsx, .unknown, .absX .ldyAbsX, .absX .ldaAbsX,
   .absY .ldxAbsY, .unknown]

/-- Row Cx of the opcode map (30_encoding.md R305). -/
def mapRowC : List Entry :=
  [.imm .cpyImm, .indX .cmpIndX, .unknown, .unknown, .zp .cpyZp, .zp .cmpZp, .zp .decZp, .unknown,
   .impl .iny, .imm .cmpImm, .impl .dex, .unknown, .abs .cpyAbs, .abs .cmpAbs, .abs .decAbs,
   .unknown]

/-- Row Dx of the opcode map (30_encoding.md R305). -/
def mapRowD : List Entry :=
  [.rel .bne, .indY .cmpIndY, .unknown, .unknown, .unknown, .zpX .cmpZpX, .zpX .decZpX, .unknown,
   .impl .cld, .absY .cmpAbsY, .unknown, .unknown, .unknown, .absX .cmpAbsX, .absX .decAbsX,
   .unknown]

/-- Row Ex of the opcode map (30_encoding.md R305). -/
def mapRowE : List Entry :=
  [.imm .cpxImm, .indX .sbcIndX, .unknown, .unknown, .zp .cpxZp, .zp .sbcZp, .zp .incZp, .unknown,
   .impl .inx, .imm .sbcImm, .impl .nop, .unknown, .abs .cpxAbs, .abs .sbcAbs, .abs .incAbs,
   .unknown]

/-- Row Fx of the opcode map (30_encoding.md R305). -/
def mapRowF : List Entry :=
  [.rel .beq, .indY .sbcIndY, .unknown, .unknown, .unknown, .zpX .sbcZpX, .zpX .incZpX, .unknown,
   .impl .sed, .absY .sbcAbsY, .unknown, .unknown, .unknown, .absX .sbcAbsX, .absX .incAbsX,
   .unknown]

/-- The opcode map: rows by opcode bits 7..4, columns by bits 3..0 (30_encoding.md R305). -/
def opcodeMap : List (List Entry) :=
  [mapRow0, mapRow1, mapRow2, mapRow3, mapRow4, mapRow5, mapRow6, mapRow7] ++
  [mapRow8, mapRow9, mapRowA, mapRowB, mapRowC, mapRowD, mapRowE, mapRowF]

/-- The 256-entry table indexed by the opcode byte (30_encoding.md R303). -/
def opcodeTable (op : Byte) : Entry :=
  (opcodeMap.getD (op.toNat / 16) []).getD (op.toNat % 16) .unknown

/-- Why bytes are no instruction. -/
inductive DecodeError where
  /-- One of the 105 bytes of 30_encoding.md R308. -/
  | unknownOpcode (op : Byte)
  /-- The bytes given end before the instruction does (log entry 13). -/
  | truncated
  deriving DecidableEq, Repr

/-- Decode the instruction at the front of a list of bytes, giving the bytes after it (30_encoding.md R300 to
R303). -/
def decode : List Byte → Except DecodeError (Instr × List Byte)
  | [] => .error .truncated
  | op :: rest =>
    match opcodeTable op, rest with
    | .unknown, _ => .error (.unknownOpcode op)
    | .noOperand _ i, r => .ok (i, r)
    | .byteOperand _ build, b :: r => .ok (build b, r)
    | .byteOperand _ _, [] => .error .truncated
    | .wordOperand _ build, lo :: hi :: r => .ok (build (hiLo hi lo), r)
    | .wordOperand _ _, [_] => .error .truncated
    | .wordOperand _ _, [] => .error .truncated

/-- Byte k of a table word: bits 8k+7..8k, zero from bit nbits up. -/
def tableByte (nbits w k : Nat) : Byte := BitVec.ofNat 8 (w % 2 ^ nbits / 2 ^ (8 * k))

/-- The bytes of a table word as memory holds them, the first at the lowest address, up to the longest
instruction's three. -/
def tableBytes (nbits w : Nat) : List Byte := [tableByte nbits w 0, tableByte nbits w 1, tableByte nbits w 2]

/-- The instruction the decoder reads from a word numbered as spec/opcode_table.json numbers it. -/
def decodeTableWord (nbits w : Nat) : Option Instr :=
  match decode (tableBytes nbits w) with
  | .ok (i, _) => some i
  | .error _ => none

/-- The operand bytes of a decoded operand, low byte first (30_encoding.md R300). -/
def Operand.bytes : Operand → List Byte
  | .immediate b | .zeroPage b | .zeroPageX b | .zeroPageY b | .relative b | .indirectX b | .indirectY b => [b]
  | .absolute w | .absoluteX w | .absoluteY w | .indirect w => [loByte w, hiByte w]
  | .implied | .noneAddressing => []

/-- The opcode byte of each instruction (30_encoding.md R306). -/
def Instr.opcode : Instr → Byte
  | .ldaImm _ => 0xA9#8 | .ldaZp _ => 0xA5#8 | .ldaZpX _ => 0xB5#8 | .ldaAbs _ => 0xAD#8
  | .ldaAbsX _ => 0xBD#8 | .ldaAbsY _ => 0xB9#8 | .ldaIndX _ => 0xA1#8 | .ldaIndY _ => 0xB1#8
  | .ldxImm _ => 0xA2#8 | .ldxZp _ => 0xA6#8 | .ldxZpY _ => 0xB6#8 | .ldxAbs _ => 0xAE#8
  | .ldxAbsY _ => 0xBE#8
  | .ldyImm _ => 0xA0#8 | .ldyZp _ => 0xA4#8 | .ldyZpX _ => 0xB4#8 | .ldyAbs _ => 0xAC#8
  | .ldyAbsX _ => 0xBC#8
  | .staZp _ => 0x85#8 | .staZpX _ => 0x95#8 | .staAbs _ => 0x8D#8 | .staAbsX _ => 0x9D#8
  | .staAbsY _ => 0x99#8 | .staIndX _ => 0x81#8 | .staIndY _ => 0x91#8
  | .stxZp _ => 0x86#8 | .stxZpY _ => 0x96#8 | .stxAbs _ => 0x8E#8
  | .styZp _ => 0x84#8 | .styZpX _ => 0x94#8 | .styAbs _ => 0x8C#8
  | .tax => 0xAA#8
  | .tay => 0xA8#8
  | .txa => 0x8A#8
  | .tya => 0x98#8
  | .tsx => 0xBA#8
  | .txs => 0x9A#8
  | .adcImm _ => 0x69#8 | .adcZp _ => 0x65#8 | .adcZpX _ => 0x75#8 | .adcAbs _ => 0x6D#8
  | .adcAbsX _ => 0x7D#8 | .adcAbsY _ => 0x79#8 | .adcIndX _ => 0x61#8 | .adcIndY _ => 0x71#8
  | .sbcImm _ => 0xE9#8 | .sbcZp _ => 0xE5#8 | .sbcZpX _ => 0xF5#8 | .sbcAbs _ => 0xED#8
  | .sbcAbsX _ => 0xFD#8 | .sbcAbsY _ => 0xF9#8 | .sbcIndX _ => 0xE1#8 | .sbcIndY _ => 0xF1#8
  | .incZp _ => 0xE6#8 | .incZpX _ => 0xF6#8 | .incAbs _ => 0xEE#8 | .incAbsX _ => 0xFE#8
  | .decZp _ => 0xC6#8 | .decZpX _ => 0xD6#8 | .decAbs _ => 0xCE#8 | .decAbsX _ => 0xDE#8
  | .inx => 0xE8#8
  | .iny => 0xC8#8
  | .dex => 0xCA#8
  | .dey => 0x88#8
  | .aslZp _ => 0x06#8 | .aslZpX _ => 0x16#8 | .aslAbs _ => 0x0E#8 | .aslAbsX _ => 0x1E#8
  | .aslAcc => 0x0A#8
  | .lsrZp _ => 0x46#8 | .lsrZpX _ => 0x56#8 | .lsrAbs _ => 0x4E#8 | .lsrAbsX _ => 0x5E#8
  | .lsrAcc => 0x4A#8
  | .rolZp _ => 0x26#8 | .rolZpX _ => 0x36#8 | .rolAbs _ => 0x2E#8 | .rolAbsX _ => 0x3E#8
  | .rolAcc => 0x2A#8
  | .rorZp _ => 0x66#8 | .rorZpX _ => 0x76#8 | .rorAbs _ => 0x6E#8 | .rorAbsX _ => 0x7E#8
  | .rorAcc => 0x6A#8
  | .andImm _ => 0x29#8 | .andZp _ => 0x25#8 | .andZpX _ => 0x35#8 | .andAbs _ => 0x2D#8
  | .andAbsX _ => 0x3D#8 | .andAbsY _ => 0x39#8 | .andIndX _ => 0x21#8 | .andIndY _ => 0x31#8
  | .oraImm _ => 0x09#8 | .oraZp _ => 0x05#8 | .oraZpX _ => 0x15#8 | .oraAbs _ => 0x0D#8
  | .oraAbsX _ => 0x1D#8 | .oraAbsY _ => 0x19#8 | .oraIndX _ => 0x01#8 | .oraIndY _ => 0x11#8
  | .eorImm _ => 0x49#8 | .eorZp _ => 0x45#8 | .eorZpX _ => 0x55#8 | .eorAbs _ => 0x4D#8
  | .eorAbsX _ => 0x5D#8 | .eorAbsY _ => 0x59#8 | .eorIndX _ => 0x41#8 | .eorIndY _ => 0x51#8
  | .bitZp _ => 0x24#8 | .bitAbs _ => 0x2C#8
  | .cmpImm _ => 0xC9#8 | .cmpZp _ => 0xC5#8 | .cmpZpX _ => 0xD5#8 | .cmpAbs _ => 0xCD#8
  | .cmpAbsX _ => 0xDD#8 | .cmpAbsY _ => 0xD9#8 | .cmpIndX _ => 0xC1#8 | .cmpIndY _ => 0xD1#8
  | .cpxImm _ => 0xE0#8 | .cpxZp _ => 0xE4#8 | .cpxAbs _ => 0xEC#8
  | .cpyImm _ => 0xC0#8 | .cpyZp _ => 0xC4#8 | .cpyAbs _ => 0xCC#8
  | .bpl _ => 0x10#8
  | .bmi _ => 0x30#8
  | .bvc _ => 0x50#8
  | .bvs _ => 0x70#8
  | .bcc _ => 0x90#8
  | .bcs _ => 0xB0#8
  | .bne _ => 0xD0#8
  | .beq _ => 0xF0#8
  | .jmpAbs _ => 0x4C#8 | .jmpInd _ => 0x6C#8
  | .jsr _ => 0x20#8
  | .rts => 0x60#8
  | .rti => 0x40#8
  | .brk => 0x00#8
  | .pha => 0x48#8
  | .php => 0x08#8
  | .pla => 0x68#8
  | .plp => 0x28#8
  | .clc => 0x18#8
  | .sec => 0x38#8
  | .cli => 0x58#8
  | .sei => 0x78#8
  | .clv => 0xB8#8
  | .cld => 0xD8#8
  | .sed => 0xF8#8
  | .nop => 0xEA#8

/-- The bytes of an instruction (30_encoding.md R300). -/
def encode (i : Instr) : List Byte := i.opcode :: i.operand.bytes

end Sys2Proof
end

