-- ==== Sys2Proof/Machine/Fetch.lean ====
section
/-! DEFINITION. Fetching the instruction at PC, and placing one there. -/

namespace Sys2Proof.Machine.State

/-- Fetch the opcode at PC, look it up, and build the instruction from the bytes after it, byte k being at
wrap16(PC + k); an Unknown opcode byte is the error (40_execution_and_addressing.md R400, 30_encoding.md R300). -/
def fetch (s : State) : Except Byte Instr :=
  match (opcodeTable (s.read s.pc)).instr (s.read (s.pc + 1#16)) (s.read (s.pc + 2#16)) with
  | some i => .ok i
  | none => .error (s.read s.pc)

/-- The three bytes from an address on, the longest instruction's. -/
def fetchWindow (s : State) : List Byte := [s.read s.pc, s.read (s.pc + 1#16), s.read (s.pc + 2#16)]

/-- Bytes stored from an address on, with 16-bit wrap. -/
def writeBytes (s : State) (addr : Word) : List Byte → State
  | [] => s
  | v :: vs => (s.write addr v).writeBytes (addr + 1#16) vs

/-- The state with an instruction word at PC and the core Running, as the fetch needs it (log entry 8). -/
def placeWord (s : State) (nbits w : Nat) : State :=
  (s.writeBytes s.pc (tableBytes nbits w)).setRun .running .none

end Sys2Proof.Machine.State
end

