-- ==== Sys2Proof/Machine/Step.lean ====
section
/-! DEFINITION. One step of the core (40_execution_and_addressing.md R400). -/

namespace Sys2Proof.Machine

/-- `Step()`: nothing in Halted or Faulted; else fetch, and either run the instruction or apply the unknown-opcode
policy in the state after the fetch (R400, R403). Its Boolean is `State.isRunning` of the state it leaves. -/
def step (s : State) : Host.Outcome State Fault Refusal :=
  match s.rs with
  | .halted => .next s
  | .faulted => .next s
  | .running =>
    match s.fetch with
    | .ok i => exec i s
    | .error op => .next ((s.advance 1).unknownOpcode op s.pc)

/-- Whether RS = Running: what `step()` returns, read in the state it leaves (R400, 60_exceptions.md R722). -/
def State.isRunning (s : State) : Bool := s.rs == .running

/-- The state with a table word stored where `step` fetches its next instruction (log entry 8). -/
def State.withFetchWord (s : State) (nbits w : Nat) : State := s.placeWord nbits w

end Sys2Proof.Machine
end

