-- ==== Sys2Proof/Machine/Accesses.lean ====
section
/-! DEFINITION. The memory-port accesses of a step, in order (40_execution_and_addressing.md R425). The list is
beside the step, which does not read it; the claims tie the two together. -/

namespace Sys2Proof.Machine

/-- One access on the memory port (20_memory.md R208). -/
inductive Access where
  | read (addr : Word)
  | write (addr : Word) (v : Byte)
  deriving DecidableEq, Repr

/-- The address an access reads, if it reads. -/
def Access.readAddr : Access → Option Word
  | .read addr => some addr
  | .write _ _ => none

/-- The address an access writes, if it writes. -/
def Access.writeAddr : Access → Option Word
  | .read _ => none
  | .write addr _ => some addr

/-- The two reads of `MemReadZP16` (20_memory.md R205). -/
def zp16Reads (zp : Byte) : List Access := [.read (zext16 zp), .read (zext16 (zp + 1#8))]

/-- The resolver's reads, part (2) of R425: operand bytes, then pointer bytes. -/
def resolverReads (o : Operand) (s : State) : List Access :=
  match o with
  | .immediate _ | .implied | .noneAddressing => []
  | .zeroPage _ | .zeroPageX _ | .zeroPageY _ | .relative _ => [.read (s.pc + 1#16)]
  | .absolute _ | .absoluteX _ | .absoluteY _ => [.read (s.pc + 1#16), .read (s.pc + 2#16)]
  | .indirect ptr =>
    [.read (s.pc + 1#16), .read (s.pc + 2#16), .read ptr, .read (indirectHighAddr ptr)]
  | .indirectX b => .read (s.pc + 1#16) :: zp16Reads (b + s.x)
  | .indirectY b => .read (s.pc + 1#16) :: zp16Reads b

/-- One read at the effective address. -/
def eaRead (o : Operand) (s : State) : List Access := (operandEa s o).toList.map .read

/-- One write at the effective address. -/
def eaWrite (o : Operand) (s : State) (v : Byte) : List Access := (operandEa s o).toList.map (.write · v)

/-- A read then a write at the effective address; none for the accumulator form. -/
def eaModify (o : Operand) (s : State) (f : Byte → Byte → Byte × Byte) : List Access :=
  (operandEa s o).toList.flatMap (fun ea => [.read ea, .write ea (f (s.read ea) s.p).1])

/-- The pushes of a word from stack pointer sp. -/
def push16Writes (sp : Byte) (w : Word) : List Access :=
  [.write (State.stackAddr sp) (hiByte w), .write (State.stackAddr (sp - 1#8)) (loByte w)]

/-- The instruction's own accesses, part (3) of R425. -/
def bodyAccesses (i : Instr) (s : State) : List Access :=
  match i.op with
  | .lda | .ldx | .ldy | .adc | .sbc | .and | .ora | .eor | .bit | .cmp | .cpx | .cpy => eaRead i.operand s
  | .sta => eaWrite i.operand s s.a
  | .stx => eaWrite i.operand s s.x
  | .sty => eaWrite i.operand s s.y
  | .inc => eaModify i.operand s incByte
  | .dec => eaModify i.operand s decByte
  | .asl => eaModify i.operand s aslByte
  | .lsr => eaModify i.operand s lsrByte
  | .rol => eaModify i.operand s rolByte
  | .ror => eaModify i.operand s rorByte
  | .jsr => push16Writes s.sp (s.pc + 2#16)
  | .pha => [.write (State.stackAddr s.sp) s.a]
  | .php => [.write (State.stackAddr s.sp) (pushedStatus s.p)]
  | .pla | .plp => [.read (State.stackAddr (s.sp + 1#8))]
  | .rts => [.read (State.stackAddr (s.sp + 1#8)), .read (State.stackAddr (s.sp + 2#8))]
  | .rti =>
    [.read (State.stackAddr (s.sp + 1#8)), .read (State.stackAddr (s.sp + 2#8)),
     .read (State.stackAddr (s.sp + 3#8))]
  | .tax | .tay | .txa | .tya | .tsx | .txs | .inx | .iny | .dex | .dey => []
  | .bpl | .bmi | .bvc | .bvs | .bcc | .bcs | .bne | .beq | .jmp | .brk => []
  | .clc | .sec | .cli | .sei | .clv | .cld | .sed | .nop => []

/-- The accesses of a step, in order: none when the core is not Running, the opcode read alone for an Unknown
opcode, else the opcode read, the resolver's reads and the instruction's own accesses (R425, R400, R403). -/
def stepAccesses (s : State) : List Access :=
  if s.isRunning then
    .read s.pc ::
      match s.fetch with
      | .ok i => resolverReads i.operand s ++ bodyAccesses i s
      | .error _ => []
  else []

/-- The memory after a list of accesses. -/
def applyWrites : List Access → Memory → Memory
  | [], m => m
  | .read _ :: later, m => applyWrites later m
  | .write addr v :: later, m => applyWrites later (m.write addr.toNat v)

end Sys2Proof.Machine
end

