-- ==== Sys2Proof/Machine/HostInterface.lean ====
section
/-! DEFINITION. The host's calls between steps (60_exceptions.md R722): `new`, `load`, `run`, `load_and_run`.
`reset` is `State.hostReset`, `step` is `step`, `read`, `write`, `read_u16` and `write_u16` are `State.read`,
`State.write`, `State.read16` and `State.write16`, `get` is the field p, `is_set` is `isSetMask`. -/

namespace Sys2Proof.Machine

/-- `new()` for a machine of the given parameters (70_reset_and_hazards.md R800). -/
def State.new (c : Config) : State where
  pc := 0x0000#16
  sp := spAtReset
  a := 0x00#8
  x := 0x00#8
  y := 0x00#8
  p := 0x00#8
  rs := .running
  fr := .none
  mem := []
  diagnostics := []
  config := c

/-- `load(program)`: refused when too long, before any write; else the bytes from 0x8000 on and then the reset
vector, and no register (70_reset_and_hazards.md R801, 60_exceptions.md R706). -/
def State.load (program : List Byte) (s : State) : StepResult :=
  if programWellFormed program then .next ((s.writeBytes loadBase program).write16 resetVector loadBase)
  else .refused (.programTooLarge program.length)

/-- How a run came back to the host (60_exceptions.md R722, R723). -/
inductive RunEnd where
  | ended      -- a step returned false: the run has ended, Halted or Faulted
  | stopped    -- the host's stop signal was seen between two steps: the run may resume
  | unfinished -- the readings of the signal given to `run` are used up: the caller's bound, not the core's
  deriving DecidableEq, Repr

/-- A run's state with how it came back. -/
structure RunResult where
  state : State
  how : RunEnd
  deriving DecidableEq, Repr

/-- `run()`: steps until one returns false or the stop signal is seen between two steps. The list holds the
readings of the host's signal after each step, true for stop; it bounds the run, since the core sets no bound
(40_execution_and_addressing.md R404, 60_exceptions.md R722, R723; log entry 9). -/
def run : List Bool → State → Host.Outcome RunResult Fault Refusal
  | [], s => .next { state := s, how := .unfinished }
  | stop :: later, s =>
    match step s with
    | .next t =>
      if t.isRunning then
        if stop then .next { state := t, how := .stopped } else run later t
      else .next { state := t, how := .ended }
    | .fault r => .fault r
    | .refused r => .refused r

/-- `load_and_run(program)`: `load`, `reset`, `run` (40_execution_and_addressing.md R404). -/
def loadAndRun (program : List Byte) (signal : List Bool) (s : State) : Host.Outcome RunResult Fault Refusal :=
  match s.load program with
  | .next t => run signal t.hostReset
  | .fault r => .fault r
  | .refused r => .refused r

end Sys2Proof.Machine
end

