-- ==== Sys2Proof/Safety.lean ====
section
/-! DEFINITION. What claims call a legal state and a good end of a run, and the words the claims are stated in. -/

namespace Sys2Proof.Machine

/-- RS and FR agree: no record while Running, `Brk` when Halted, `IllegalOpcode` when Faulted (10_state.md R131). -/
def State.RecordAgrees (s : State) : Prop :=
  match s.rs, s.fr with
  | .running, .none => True
  | .halted, .brk _ => True
  | .faulted, .illegalOpcode _ _ => True
  | .running, .brk _ | .running, .illegalOpcode _ _ => False
  | .halted, .none | .halted, .illegalOpcode _ _ => False
  | .faulted, .none | .faulted, .brk _ => False

/-- A state the core can be in: canonical memory, RS and FR in agreement, P.B and P.U still 0 (10_state.md R117,
R118, R131), and, under the strict policy, no diagnostic ever emitted (R132). -/
structure State.Legal (s : State) : Prop where
  memory : s.mem.wf
  record : s.RecordAgrees
  breakClear : Flag.brk.get s.p = false
  unusedClear : Flag.unused.get s.p = false
  strictSilent : s.config.unknownOpcode = .strict → s.diagnostics = []

/-- The 105 Unknown opcode bytes, as 30_encoding.md R308 lists them. -/
def unknownBytes : List Nat :=
  [0x02, 0x03, 0x04, 0x07, 0x0B, 0x0C, 0x0F, 0x12, 0x13, 0x14, 0x17, 0x1A, 0x1B, 0x1C, 0x1F, 0x22, 0x23, 0x27] ++
  [0x2B, 0x2F, 0x32, 0x33, 0x34, 0x37, 0x3A, 0x3B, 0x3C, 0x3F, 0x42, 0x43, 0x44, 0x47, 0x4B, 0x4F, 0x52, 0x53] ++
  [0x54, 0x57, 0x5A, 0x5B, 0x5C, 0x5F, 0x62, 0x63, 0x64, 0x67, 0x6B, 0x6F, 0x72, 0x73, 0x74, 0x77, 0x7A, 0x7B] ++
  [0x7C, 0x7F, 0x80, 0x82, 0x83, 0x87, 0x89, 0x8B, 0x8F, 0x92, 0x93, 0x97, 0x9B, 0x9C, 0x9E, 0x9F, 0xA3, 0xA7] ++
  [0xAB, 0xAF, 0xB2, 0xB3, 0xB7, 0xBB, 0xBF, 0xC2, 0xC3, 0xC7, 0xCB, 0xCF, 0xD2, 0xD3, 0xD4, 0xD7, 0xDA, 0xDB] ++
  [0xDC, 0xDF, 0xE2, 0xE3, 0xE7, 0xEB, 0xEF, 0xF2, 0xF3, 0xF4, 0xF7, 0xFA, 0xFB, 0xFC, 0xFF]

/-- The opcodes an operation has, each with its mode, and no other (30_encoding.md R306). -/
def HasEncodings (op : Op) (rows : List (Byte × Mode)) : Prop :=
  ∀ i : Instr, i.op = op ↔ (i.opcode, i.mode) ∈ rows

/-- The address after an instruction whose opcode is at PC (40_execution_and_addressing.md R402). -/
def nextPc (i : Instr) (s : State) : Word := s.pc + BitVec.ofNat 16 i.length

/-- Between s and t one byte was stored, v at ea: every other address reads as before (20_memory.md R202). -/
def StoredByte (s t : State) (ea : Word) (v : Byte) : Prop :=
  ∀ k : Word, t.read k = if k = ea then v else s.read k

/-- An instruction replaces its operand, A in the accumulator form or else the byte at its effective address, by a
result, and P by a status, both computed from the old operand and the old P; nothing else but PC changes
(45_shift_rotate.md R524, 44_incdec.md R500, R501). -/
def ReplacesOperand (i : Instr) (result status : Byte → Byte → Byte) : Prop :=
  ∀ s : State,
    (i.mode = .implied →
      exec i s = .next { s with a := result s.a s.p, p := status s.a s.p, pc := nextPc i s }) ∧
    (i.mode ≠ .implied → ∃ ea t, operandEa s i.operand = some ea ∧ exec i s = .next t ∧
      StoredByte s t ea (result (s.read ea) s.p) ∧
      t = { s with mem := t.mem, p := status (s.read ea) s.p, pc := nextPc i s })

/-- The operations that may leave PC elsewhere than after themselves (40_execution_and_addressing.md R402). -/
def controlTransfers : List Op :=
  [.bpl, .bmi, .bvc, .bvs, .bcc, .bcs, .bne, .beq, .jmp, .jsr, .rts, .rti]

/-- The flags an operation may change, the columns of 10_state.md R121 that are not `-`. -/
def flagsWritten : Op → List Flag
  | .lda | .ldx | .ldy | .tax | .tay | .txa | .tya | .tsx | .pla | .inc | .dec | .inx | .iny | .dex | .dey
  | .and | .ora | .eor => [.negative, .zero]
  | .sta | .stx | .sty | .txs | .pha | .php | .jmp | .jsr | .rts | .nop | .brk => []
  | .bpl | .bmi | .bvc | .bvs | .bcc | .bcs | .bne | .beq => []
  | .adc | .sbc => [.negative, .overflow, .zero, .carry]
  | .asl | .lsr | .rol | .ror | .cmp | .cpx | .cpy => [.negative, .zero, .carry]
  | .bit => [.negative, .overflow, .zero]
  | .clc | .sec => [.carry]
  | .cli | .sei => [.interruptDisable]
  | .clv => [.overflow]
  | .cld | .sed => [.decimalMode]
  | .plp | .rti => [.negative, .overflow, .decimalMode, .interruptDisable, .zero, .carry]

/-- The packed BCD byte of a number below 100 (00_scope.md R17). -/
def bcd (n : Nat) : Byte := BitVec.ofNat 8 (n / 10 * 16 + n % 10)

/-- The core has come to its normal end, by BRK (60_exceptions.md R700, R723). -/
def State.EndedNormally (s : State) : Prop := s.rs = .halted

/-- The core has come to a fatal end, by an unknown opcode under the strict policy (60_exceptions.md R700, R723). -/
def State.EndedFatally (s : State) : Prop := s.rs = .faulted

end Sys2Proof.Machine
end

