-- ==== Sys2Proof/Certificates/Slice0/Obligations.lean ====
section
/-! DEFINITION. The statements for the provers. Each formalises the rules of spec/ its entry in OBLIGATIONS.json
cites. -/

open Sys2Proof Sys2Proof.Machine

/-- For every instruction i (all 151 rows, every operand byte at every value; every term of Instr is well
formed) and any bytes after it, decode reads i from the front of encode i followed by those bytes, and leaves
exactly those bytes. (30_encoding.md section 1 (R300), 30_encoding.md section 3 (R303, R305, R306)) -/
def Obligations.DecodeOfEncodeGivesTheInstruction : Prop :=
  ∀ (i : Instr) (rest : List Byte), decode (encode i ++ rest) = .ok (i, rest)

/-- If decode reads instruction i from a list of bytes and leaves rest, then the list is encode i followed by
rest: no two byte sequences decode to one instruction. (30_encoding.md section 1 (R300), 30_encoding.md section
3 (R303)) -/
def Obligations.DecodedBytesAreTheEncoding : Prop :=
  ∀ (bytes rest : List Byte) (i : Instr), decode bytes = .ok (i, rest) → bytes = encode i ++ rest

/-- For every byte op and any bytes after it, decode answers the error unknownOpcode op exactly when op is one
of the 105 bytes R308 lists. (30_encoding.md section 4 (R308)) -/
def Obligations.UnknownOpcodeBytesAreExactlyTheListed : Prop :=
  ∀ (op : Byte) (rest : List Byte),
    decode (op :: rest) = .error (.unknownOpcode op) ↔ op.toNat ∈ unknownBytes

/-- Over the 256 opcode bytes the table has 105 Unknown entries, and 28 entries tagged Accumulator/Implied, 1
NoneAddressing, 11 Immediate, 21 ZeroPage, 16 ZeroPageX, 2 ZeroPageY, 8 Relative, 8 IndirectX, 8 IndirectY, 23
Absolute, 15 AbsoluteX, 9 AbsoluteY and 1 Indirect. (30_encoding.md section 3 (R306, the counts)) -/
def Obligations.OpcodeTableCountsByMode : Prop :=
  let count := fun (m : Option Mode) =>
    (List.range 256).countP (fun n => (opcodeTable (BitVec.ofNat 8 n)).mode == m)
  count none = 105 ∧ count (some .implied) = 28 ∧ count (some .noneAddressing) = 1 ∧
  count (some .immediate) = 11 ∧ count (some .zeroPage) = 21 ∧ count (some .zeroPageX) = 16 ∧
  count (some .zeroPageY) = 2 ∧ count (some .relative) = 8 ∧ count (some .indirectX) = 8 ∧
  count (some .indirectY) = 8 ∧ count (some .absolute) = 23 ∧ count (some .absoluteX) = 15 ∧
  count (some .absoluteY) = 9 ∧ count (some .indirect) = 1

/-- Two instructions with the same opcode byte have the same operation tag, the same mode tag and the same
length, and that length is the number of bytes of the encoding of each. (30_encoding.md section 1 (R301),
30_encoding.md section 3 (R303)) -/
def Obligations.OpcodeByteDecidesOperationModeAndLength : Prop :=
  ∀ i j : Instr, i.opcode = j.opcode →
    i.op = j.op ∧ i.mode = j.mode ∧ i.length = j.length ∧
    (encode i).length = i.length ∧ (encode j).length = i.length

/-- A9 06 decodes to LDA #$06, AA to TAX, B5 FA to LDA $FA,X, 00 to BRK (the four bytes the source gives), AD 34
12 to LDA $1234, 6C 20 01 to JMP ($0120), D0 FA to BNE with offset FA, 0A to ASL A, B1 20 to LDA ($20),Y.
(30_encoding.md section 3 (R304, R306), 30_encoding.md section 5 (R310)) -/
def Obligations.SampleWordsDecode : Prop :=
  decode [0xA9#8, 0x06#8] = .ok (.ldaImm 0x06#8, []) ∧ decode [0xAA#8] = .ok (.tax, []) ∧
  decode [0xB5#8, 0xFA#8] = .ok (.ldaZpX 0xFA#8, []) ∧ decode [0x00#8] = .ok (.brk, []) ∧
  decode [0xAD#8, 0x34#8, 0x12#8] = .ok (.ldaAbs 0x1234#16, []) ∧
  decode [0x6C#8, 0x20#8, 0x01#8] = .ok (.jmpInd 0x0120#16, []) ∧
  decode [0xD0#8, 0xFA#8] = .ok (.bne 0xFA#8, []) ∧ decode [0x0A#8] = .ok (.aslAcc, []) ∧
  decode [0xB1#8, 0x20#8] = .ok (.ldaIndY 0x20#8, [])

/-- When RS is Running and the three bytes from PC on (with 16-bit wrap) decode to instruction i, step at that
state is exec i at that state: exec itself advances PC past the instruction and step adds nothing around it.
(40_execution_and_addressing.md section 1 (R400)) -/
def Obligations.StepRunsTheDecodedInstruction : Prop :=
  ∀ (s : State) (i : Instr) (rest : List Byte),
    s.rs = .running → decode s.fetchWindow = .ok (i, rest) → step s = exec i s

/-- When RS is Running and byte k of the encoding of i is the byte at wrap16(PC + k) for every k below its
length, step at that state is exec i at that state, whatever the bytes after it hold.
(40_execution_and_addressing.md section 1 (R400), 30_encoding.md section 1 (R300)) -/
def Obligations.StepRunsTheInstructionEncodedAtPc : Prop :=
  ∀ (s : State) (i : Instr), s.rs = .running →
    (∀ (k : Nat) (h : k < (encode i).length), s.read (s.pc + BitVec.ofNat 16 k) = (encode i)[k]) →
    step s = exec i s

/-- In a state whose RS is not Running, step answers the same state and reports not running; the host's reset
and new give a state that is Running, and the host's load and memory writes leave RS as it was. (R403) -/
def Obligations.StepOutsideRunningDoesNothing : Prop :=
  (∀ s : State, s.rs ≠ .running → step s = .next s ∧ s.isRunning = false) ∧
  (∀ s : State, s.hostReset.rs = .running) ∧ (∀ c : Config, (State.new c).rs = .running) ∧
  (∀ (s t : State) (program : List Byte), s.load program = .next t → t.rs = s.rs) ∧
  (∀ (s : State) (k : Word) (v : Byte), (s.write k v).rs = s.rs) ∧
  (∀ (s : State) (k v : Word), (s.write16 k v).rs = s.rs)

/-- When RS is Running, the policy is Strict and the byte at PC is one of the 105 unknown bytes, step answers
the state with PC one more, RS Faulted, FR IllegalOpcode(op, PC) and nothing else changed; that step reports not
running, a further step changes nothing, and reset returns it to Running. (R702) -/
def Obligations.UnknownOpcodeUnderStrictFaults : Prop :=
  ∀ s : State, s.rs = .running → s.config.unknownOpcode = .strict → (s.read s.pc).toNat ∈ unknownBytes →
    ∃ t, step s = .next t ∧
      t = { s with pc := s.pc + 1#16, rs := .faulted, fr := .illegalOpcode (s.read s.pc) s.pc } ∧
      t.isRunning = false ∧ step t = .next t ∧ t.hostReset.isRunning = true

/-- When RS is Running, the policy is Permissive and the byte at PC is one of the 105 unknown bytes, step
answers the state with PC one more and the diagnostic UnknownOpcode(op, PC) emitted, nothing else changed, still
Running. That the emitted diagnostics are kept as a list, the newest last, is the model's choice (log entry 3).
(60_exceptions.md section 1 (R703), 10_state.md section 3 (R132)) -/
def Obligations.UnknownOpcodeUnderPermissiveIsANoOp : Prop :=
  ∀ s : State, s.rs = .running → s.config.unknownOpcode = .permissive →
    (s.read s.pc).toNat ∈ unknownBytes →
    ∃ t, step s = .next t ∧ t.isRunning = true ∧
      t = { s with pc := s.pc + 1#16, diagnostics := s.diagnostics ++ [{ op := s.read s.pc, addr := s.pc }] }

/-- From a Running state step always answers a next state; its RS is Halted exactly when the byte at PC is 0x00,
Faulted exactly when that byte is unknown and the policy is Strict, and Running otherwise. No instruction has an
error case: exec of any of the 151 answers a next state whose RS is Faulted only if it was Faulted before.
(R700) -/
def Obligations.StepEndsInExactlyOneOutcome : Prop :=
  (∀ s : State, s.rs = .running → ∃ t, step s = .next t ∧
    (t.rs = .halted ↔ s.read s.pc = 0x00#8) ∧
    (t.rs = .faulted ↔ (s.read s.pc).toNat ∈ unknownBytes ∧ s.config.unknownOpcode = .strict) ∧
    (t.rs = .running ↔ s.read s.pc ≠ 0x00#8 ∧
      ¬((s.read s.pc).toNat ∈ unknownBytes ∧ s.config.unknownOpcode = .strict))) ∧
  (∀ (i : Instr) (s : State), ∃ t, exec i s = .next t ∧ (t.rs = .faulted → s.rs = .faulted))

/-- For every instruction whose operation is no branch, jump, JSR, RTS or RTI (BRK included), exec answers a
next state whose PC is PC plus the length modulo 65536, and the length is 1, 2 or 3.
(40_execution_and_addressing.md section 1 (R402)) -/
def Obligations.PcEndsAfterAnInstructionThatIsNoTransfer : Prop :=
  ∀ (i : Instr) (s : State), i.op ∉ controlTransfers →
    ∃ t, exec i s = .next t ∧ t.pc.toNat = (s.pc.toNat + i.length) % 65536 ∧
      (i.length = 1 ∨ i.length = 2 ∨ i.length = 3)

/-- LDA, LDX and LDY have exactly the opcodes and modes of their rules. For every form and every state, the
operand byte m is the immediate byte or the byte at the effective address, and exec answers the state with A (X,
Y) = m, P = UpdateZN(m) and PC after the instruction, everything else unchanged. (R440, R441, R442) -/
def Obligations.LoadsPutTheOperandInTheirRegister : Prop :=
  HasEncodings .lda
    [(0xA9#8, .immediate), (0xA5#8, .zeroPage), (0xB5#8, .zeroPageX), (0xAD#8, .absolute),
     (0xBD#8, .absoluteX), (0xB9#8, .absoluteY), (0xA1#8, .indirectX), (0xB1#8, .indirectY)] ∧
  HasEncodings .ldx
    [(0xA2#8, .immediate), (0xA6#8, .zeroPage), (0xB6#8, .zeroPageY),
     (0xAE#8, .absolute), (0xBE#8, .absoluteY)] ∧
  HasEncodings .ldy
    [(0xA0#8, .immediate), (0xA4#8, .zeroPage), (0xB4#8, .zeroPageX),
     (0xAC#8, .absolute), (0xBC#8, .absoluteX)] ∧
  ∀ (i : Instr) (s : State),
    (i.op = .lda → ∃ m, operandValue s i.operand = some m ∧
      exec i s = .next { s with a := m, p := updateZN m s.p, pc := nextPc i s }) ∧
    (i.op = .ldx → ∃ m, operandValue s i.operand = some m ∧
      exec i s = .next { s with x := m, p := updateZN m s.p, pc := nextPc i s }) ∧
    (i.op = .ldy → ∃ m, operandValue s i.operand = some m ∧
      exec i s = .next { s with y := m, p := updateZN m s.p, pc := nextPc i s })

/-- STA, STX and STY have exactly the opcodes and modes of their rules. For every form and every state, with ea
the effective address, exec answers a state in which the byte at ea is A (X, Y), every other byte reads as
before, PC is after the instruction, and no flag or register changes. (R443, R444, R445) -/
def Obligations.StoresWriteTheirRegisterAtTheEffectiveAddress : Prop :=
  HasEncodings .sta
    [(0x85#8, .zeroPage), (0x95#8, .zeroPageX), (0x8D#8, .absolute), (0x9D#8, .absoluteX),
     (0x99#8, .absoluteY), (0x81#8, .indirectX), (0x91#8, .indirectY)] ∧
  HasEncodings .stx [(0x86#8, .zeroPage), (0x96#8, .zeroPageY), (0x8E#8, .absolute)] ∧
  HasEncodings .sty [(0x84#8, .zeroPage), (0x94#8, .zeroPageX), (0x8C#8, .absolute)] ∧
  ∀ (i : Instr) (s : State),
    (i.op = .sta → ∃ ea t, operandEa s i.operand = some ea ∧ exec i s = .next t ∧ StoredByte s t ea s.a ∧
      t = { s with mem := t.mem, pc := nextPc i s }) ∧
    (i.op = .stx → ∃ ea t, operandEa s i.operand = some ea ∧ exec i s = .next t ∧ StoredByte s t ea s.x ∧
      t = { s with mem := t.mem, pc := nextPc i s }) ∧
    (i.op = .sty → ∃ ea t, operandEa s i.operand = some ea ∧ exec i s = .next t ∧ StoredByte s t ea s.y ∧
      t = { s with mem := t.mem, pc := nextPc i s })

/-- Each transfer is one byte with the opcode of its rule; in every state it copies its source register to its
destination and applies UpdateZN to the value, except TXS, which leaves P alone; PC is one more and nothing else
changes. (R460, R461, R462, R463, R464, R465) -/
def Obligations.TransfersCopyBetweenRegisters : Prop :=
  ∀ s : State,
    (encode .tax = [0xAA#8] ∧
      exec .tax s = .next { s with x := s.a, p := updateZN s.a s.p, pc := s.pc + 1#16 }) ∧
    (encode .tay = [0xA8#8] ∧
      exec .tay s = .next { s with y := s.a, p := updateZN s.a s.p, pc := s.pc + 1#16 }) ∧
    (encode .txa = [0x8A#8] ∧
      exec .txa s = .next { s with a := s.x, p := updateZN s.x s.p, pc := s.pc + 1#16 }) ∧
    (encode .tya = [0x98#8] ∧
      exec .tya s = .next { s with a := s.y, p := updateZN s.y s.p, pc := s.pc + 1#16 }) ∧
    (encode .tsx = [0xBA#8] ∧
      exec .tsx s = .next { s with x := s.sp, p := updateZN s.sp s.p, pc := s.pc + 1#16 }) ∧
    (encode .txs = [0x9A#8] ∧
      exec .txs s = .next { s with sp := s.x, pc := s.pc + 1#16 })

/-- ADC and SBC have exactly the opcodes and modes of their rules. For every form and every state with operand
byte m: if P.D = 1 and DECIMAL_MODE is Nmos, A and P are those of AddDecimal(m) (SubDecimal(m)); otherwise, in
particular whenever DECIMAL_MODE is Ignored, they are those of AddBinary(m) (AddBinary of the complement of m).
PC is after the instruction, nothing else changes. SED, CLD, PLP, RTI and PHP take no account of DECIMAL_MODE:
changing it commutes with each of them. (R480, R481, R485) -/
def Obligations.AdcAndSbcUseBinaryOrDecimalArithmetic : Prop :=
  HasEncodings .adc
    [(0x69#8, .immediate), (0x65#8, .zeroPage), (0x75#8, .zeroPageX), (0x6D#8, .absolute),
     (0x7D#8, .absoluteX), (0x79#8, .absoluteY), (0x61#8, .indirectX), (0x71#8, .indirectY)] ∧
  HasEncodings .sbc
    [(0xE9#8, .immediate), (0xE5#8, .zeroPage), (0xF5#8, .zeroPageX), (0xED#8, .absolute),
     (0xFD#8, .absoluteX), (0xF9#8, .absoluteY), (0xE1#8, .indirectX), (0xF1#8, .indirectY)] ∧
  (∀ (i : Instr) (s : State),
    (i.op = .adc → ∃ m, operandValue s i.operand = some m ∧
      let r := if Flag.decimalMode.get s.p = true ∧ s.config.decimal = .nmos
        then addDecimal s.a m s.p else addBinary s.a m s.p
      exec i s = .next { s with a := r.1, p := r.2, pc := nextPc i s }) ∧
    (i.op = .sbc → ∃ m, operandValue s i.operand = some m ∧
      let r := if Flag.decimalMode.get s.p = true ∧ s.config.decimal = .nmos
        then subDecimal s.a m s.p else addBinary s.a (m ^^^ 0xFF#8) s.p
      exec i s = .next { s with a := r.1, p := r.2, pc := nextPc i s })) ∧
  (∀ (i : Instr) (s : State) (c : Config), i.op ∈ [.sed, .cld, .plp, .rti, .php] →
    ∃ t, exec i s = .next t ∧ exec i { s with config := c } = .next { t with config := c })

/-- For all bytes a and b and every P with carry c: the new A is (a + b + c) mod 256; C is set exactly when the
sum exceeds 255; V is bit 7 of (a ^ r) & (b ^ r) for the result r, which is set exactly when the signed sum lies
outside -128..127; Z and N follow UpdateZN of the result; every other flag is unchanged. (R482) -/
def Obligations.AddBinaryIsTheSumWithCarryAndSignedOverflow : Prop :=
  ∀ a b p : Byte,
    let c := (Flag.carry.get p).toNat
    let r := addBinary a b p
    r.1.toNat = (a.toNat + b.toNat + c) % 256 ∧
    Flag.carry.get r.2 = decide (a.toNat + b.toNat + c > 255) ∧
    Flag.overflow.get r.2 = decide (((a ^^^ r.1) &&& (b ^^^ r.1)) &&& 0x80#8 ≠ 0#8) ∧
    Flag.overflow.get r.2 =
      decide (signed8 a + signed8 b + (c : Int) < -128 ∨ signed8 a + signed8 b + (c : Int) > 127) ∧
    Flag.zero.get r.2 = decide (r.1 = 0#8) ∧ Flag.negative.get r.2 = r.1.getLsbD 7 ∧
    ∀ f : Flag, f ∉ [.negative, .overflow, .zero, .carry] → f.get r.2 = f.get p

/-- For all bytes a and m (valid BCD or not) and every P with carry c, in terms of the digits a mod 16, a / 16
and m mod 16, m / 16: the low digits' sum al is adjusted when 10 or more; s adds the high digits unsigned, t
adds them signed; N is bit 7 of t modulo 256, V is t outside -128..127; s is adjusted by 0x60 when 0xA0 or more;
C is the adjusted s at least 0x100, the new A is the adjusted s modulo 256, Z is the binary sum modulo 256 being
0; every other flag is unchanged. (R483) -/
def Obligations.AddDecimalIsTheNmosDigitSum : Prop :=
  ∀ a m p : Byte,
    let c := (Flag.carry.get p).toNat
    let lowSum := a.toNat % 16 + m.toNat % 16 + c
    let al := if lowSum ≥ 10 then (lowSum + 6) % 16 + 16 else lowSum
    let s := a.toNat / 16 * 16 + m.toNat / 16 * 16 + al
    let signedHigh := fun (v : Byte) =>
      if v.toNat < 128 then ((v.toNat / 16 * 16 : Nat) : Int) else ((v.toNat / 16 * 16 : Nat) : Int) - 256
    let t := signedHigh a + signedHigh m + (al : Int)
    let adjusted := if s ≥ 0xA0 then s + 0x60 else s
    let r := addDecimal a m p
    r.1.toNat = adjusted % 256 ∧
    Flag.carry.get r.2 = decide (adjusted ≥ 0x100) ∧
    Flag.negative.get r.2 = decide (t % 256 ≥ 128) ∧
    Flag.overflow.get r.2 = decide (t < -128 ∨ t > 127) ∧
    Flag.zero.get r.2 = decide ((a.toNat + m.toNat + c) % 256 = 0) ∧
    ∀ f : Flag, f ∉ [.negative, .overflow, .zero, .carry] → f.get r.2 = f.get p

/-- For all bytes a and m (valid BCD or not) and every P with carry c: the low digits' difference al is adjusted
when negative; s adds the high digits' difference and is adjusted by -0x60 when negative; the new A is the
adjusted s modulo 256, and the whole new P is the one AddBinary of the complement of m gives. (R484) -/
def Obligations.SubDecimalIsTheNmosDigitDifferenceWithBinaryFlags : Prop :=
  ∀ a m p : Byte,
    let c := ((Flag.carry.get p).toNat : Int)
    let lowDiff : Int := ((a.toNat % 16 : Nat) : Int) - ((m.toNat % 16 : Nat) : Int) + c - 1
    let al := if lowDiff < 0 then (lowDiff - 6) % 16 - 16 else lowDiff
    let s := ((a.toNat / 16 * 16 : Nat) : Int) - ((m.toNat / 16 * 16 : Nat) : Int) + al
    let adjusted := if s < 0 then s - 0x60 else s
    let r := subDecimal a m p
    (r.1.toNat : Int) = adjusted % 256 ∧ r.2 = (addBinary a (m ^^^ 0xFF#8) p).2

/-- For numbers x and y below 100 in packed BCD and every P with carry c, AddDecimal gives the packed BCD of (x
+ y + c) mod 100 and C is set exactly when x + y + c is 100 or more. (43_arithmetic.md section 3 (R483)) -/
def Obligations.AddDecimalOfValidBcdIsDecimalAddition : Prop :=
  ∀ (x y : Nat) (p : Byte), x < 100 → y < 100 →
    let n := x + y + (Flag.carry.get p).toNat
    (addDecimal (bcd x) (bcd y) p).1 = bcd (n % 100) ∧
    Flag.carry.get (addDecimal (bcd x) (bcd y) p).2 = decide (n ≥ 100)

/-- For numbers x and y below 100 in packed BCD and every P whose carry gives borrow b = 1 - C, SubDecimal gives
the packed BCD of (x - y - b) mod 100 and C is set exactly when x is at least y + b. (43_arithmetic.md section 3
(R484)) -/
def Obligations.SubDecimalOfValidBcdIsDecimalSubtraction : Prop :=
  ∀ (x y : Nat) (p : Byte), x < 100 → y < 100 →
    let b := 1 - (Flag.carry.get p).toNat
    (subDecimal (bcd x) (bcd y) p).1 = bcd ((x + 100 - y - b) % 100) ∧
    Flag.carry.get (subDecimal (bcd x) (bcd y) p).2 = decide (x ≥ y + b)

/-- For all bytes a and m and every P with borrow b = 1 - C: AddBinary of the complement of m gives (a - m - b)
mod 256, leaves C set exactly when a is at least m + b, and V set exactly when the signed difference lies
outside -128..127. (43_arithmetic.md section 1 (R481), 43_arithmetic.md section 2 (R482)) -/
def Obligations.BinarySbcIsTheDifferenceWithBorrow : Prop :=
  ∀ a m p : Byte,
    let b : Int := 1 - (Flag.carry.get p).toNat
    let r := addBinary a (m ^^^ 0xFF#8) p
    (r.1.toNat : Int) = ((a.toNat : Int) - (m.toNat : Int) - b) % 256 ∧
    Flag.carry.get r.2 = decide ((a.toNat : Int) ≥ (m.toNat : Int) + b) ∧
    Flag.overflow.get r.2 =
      decide (signed8 a - signed8 m - b < -128 ∨ signed8 a - signed8 m - b > 127)

/-- INC and DEC have exactly the opcodes and modes of their rules. For every form and every state, the byte at
the effective address becomes one more (less) modulo 256, P is UpdateZN of the result, PC is after the
instruction, every other byte and register is unchanged. (R500, R501) -/
def Obligations.IncAndDecReplaceTheByteAtTheEffectiveAddress : Prop :=
  HasEncodings .inc [(0xE6#8, .zeroPage), (0xF6#8, .zeroPageX), (0xEE#8, .absolute), (0xFE#8, .absoluteX)] ∧
  HasEncodings .dec [(0xC6#8, .zeroPage), (0xD6#8, .zeroPageX), (0xCE#8, .absolute), (0xDE#8, .absoluteX)] ∧
  ∀ i : Instr,
    (i.op = .inc → ReplacesOperand i (fun v _ => v + 1#8) (fun v p => updateZN (v + 1#8) p)) ∧
    (i.op = .dec → ReplacesOperand i (fun v _ => v - 1#8) (fun v p => updateZN (v - 1#8) p))

/-- Each is one byte with the opcode of its rule; in every state it adds or subtracts one modulo 256 and applies
UpdateZN to the result; PC is one more and nothing else changes. (R502, R503, R504, R505) -/
def Obligations.IndexRegistersStepByOne : Prop :=
  ∀ s : State,
    (encode .inx = [0xE8#8] ∧
      exec .inx s = .next { s with x := s.x + 1#8, p := updateZN (s.x + 1#8) s.p, pc := s.pc + 1#16 }) ∧
    (encode .iny = [0xC8#8] ∧
      exec .iny s = .next { s with y := s.y + 1#8, p := updateZN (s.y + 1#8) s.p, pc := s.pc + 1#16 }) ∧
    (encode .dex = [0xCA#8] ∧
      exec .dex s = .next { s with x := s.x - 1#8, p := updateZN (s.x - 1#8) s.p, pc := s.pc + 1#16 }) ∧
    (encode .dey = [0x88#8] ∧
      exec .dey s = .next { s with y := s.y - 1#8, p := updateZN (s.y - 1#8) s.p, pc := s.pc + 1#16 })

/-- Each has exactly the opcodes and modes of its rule. For the accumulator form A, and for a memory form the
byte at the effective address, is replaced by the byte shifted left or right by one, with 0 (ASL, LSR) or the
old carry (ROL into bit 0, ROR into bit 7) shifted in; C is the bit shifted out, Z and N follow the result, V
and every other flag, register and byte are unchanged, PC is after the instruction. (R520, R521, R522, R523,
R524) -/
def Obligations.ShiftsAndRotatesMoveOneBitThroughCarry : Prop :=
  HasEncodings .asl
    [(0x06#8, .zeroPage), (0x16#8, .zeroPageX), (0x0E#8, .absolute),
     (0x1E#8, .absoluteX), (0x0A#8, .implied)] ∧
  HasEncodings .lsr
    [(0x46#8, .zeroPage), (0x56#8, .zeroPageX), (0x4E#8, .absolute),
     (0x5E#8, .absoluteX), (0x4A#8, .implied)] ∧
  HasEncodings .rol
    [(0x26#8, .zeroPage), (0x36#8, .zeroPageX), (0x2E#8, .absolute),
     (0x3E#8, .absoluteX), (0x2A#8, .implied)] ∧
  HasEncodings .ror
    [(0x66#8, .zeroPage), (0x76#8, .zeroPageX), (0x6E#8, .absolute),
     (0x7E#8, .absoluteX), (0x6A#8, .implied)] ∧
  ∀ i : Instr,
    (i.op = .asl → ReplacesOperand i (fun v _ => v <<< 1)
      (fun v p => updateZN (v <<< 1) (Flag.carry.put (v.getLsbD 7) p))) ∧
    (i.op = .lsr → ReplacesOperand i (fun v _ => v >>> 1)
      (fun v p => updateZN (v >>> 1) (Flag.carry.put (v.getLsbD 0) p))) ∧
    (i.op = .rol → ReplacesOperand i
      (fun v p => (v <<< 1) ||| (if Flag.carry.get p then 0x01#8 else 0x00#8))
      (fun v p => updateZN ((v <<< 1) ||| (if Flag.carry.get p then 0x01#8 else 0x00#8))
        (Flag.carry.put (v.getLsbD 7) p))) ∧
    (i.op = .ror → ReplacesOperand i
      (fun v p => (v >>> 1) ||| (if Flag.carry.get p then 0x80#8 else 0x00#8))
      (fun v p => updateZN ((v >>> 1) ||| (if Flag.carry.get p then 0x80#8 else 0x00#8))
        (Flag.carry.put (v.getLsbD 0) p)))

/-- Starting from any byte and any P, nine rotates left give back the byte and the carry, so do nine rotates
right, and a rotate right after a rotate left gives back the byte and the carry. (45_shift_rotate.md (R522,
R523)) -/
def Obligations.NineRotatesRestoreTheByteAndTheCarry : Prop :=
  ∀ v p : Byte,
    let rol := fun (q : Byte × Byte) => rolByte q.1 q.2
    let ror := fun (q : Byte × Byte) => rorByte q.1 q.2
    ((Nat.repeat rol 9 (v, p)).1 = v ∧ Flag.carry.get (Nat.repeat rol 9 (v, p)).2 = Flag.carry.get p) ∧
    ((Nat.repeat ror 9 (v, p)).1 = v ∧ Flag.carry.get (Nat.repeat ror 9 (v, p)).2 = Flag.carry.get p) ∧
    ((ror (rol (v, p))).1 = v ∧ Flag.carry.get (ror (rol (v, p))).2 = Flag.carry.get p)

/-- AND, ORA and EOR have exactly the opcodes and modes of their rules. For every form and every state with
operand byte m, A becomes A and m, A or m, A exclusive-or m, P is UpdateZN of the result, PC is after the
instruction and nothing else changes. (R540, R541, R542) -/
def Obligations.LogicalOperationsCombineAWithTheOperand : Prop :=
  HasEncodings .and
    [(0x29#8, .immediate), (0x25#8, .zeroPage), (0x35#8, .zeroPageX), (0x2D#8, .absolute),
     (0x3D#8, .absoluteX), (0x39#8, .absoluteY), (0x21#8, .indirectX), (0x31#8, .indirectY)] ∧
  HasEncodings .ora
    [(0x09#8, .immediate), (0x05#8, .zeroPage), (0x15#8, .zeroPageX), (0x0D#8, .absolute),
     (0x1D#8, .absoluteX), (0x19#8, .absoluteY), (0x01#8, .indirectX), (0x11#8, .indirectY)] ∧
  HasEncodings .eor
    [(0x49#8, .immediate), (0x45#8, .zeroPage), (0x55#8, .zeroPageX), (0x4D#8, .absolute),
     (0x5D#8, .absoluteX), (0x59#8, .absoluteY), (0x41#8, .indirectX), (0x51#8, .indirectY)] ∧
  ∀ (i : Instr) (s : State),
    (i.op = .and → ∃ m, operandValue s i.operand = some m ∧
      exec i s = .next { s with a := s.a &&& m, p := updateZN (s.a &&& m) s.p, pc := nextPc i s }) ∧
    (i.op = .ora → ∃ m, operandValue s i.operand = some m ∧
      exec i s = .next { s with a := s.a ||| m, p := updateZN (s.a ||| m) s.p, pc := nextPc i s }) ∧
    (i.op = .eor → ∃ m, operandValue s i.operand = some m ∧
      exec i s = .next { s with a := s.a ^^^ m, p := updateZN (s.a ^^^ m) s.p, pc := nextPc i s })

/-- BIT has exactly the opcodes and modes of its rule. For both forms and every state with operand byte m, exec
answers a state that differs only in P and PC; Z is whether A and m is 0, V is bit 6 of m, N is bit 7 of m, and
every other flag is unchanged. (R543) -/
def Obligations.BitTestsWithoutWritingA : Prop :=
  HasEncodings .bit [(0x24#8, .zeroPage), (0x2C#8, .absolute)] ∧
  ∀ (i : Instr) (s : State), i.op = .bit →
    ∃ m t, operandValue s i.operand = some m ∧ exec i s = .next t ∧
      t = { s with p := t.p, pc := nextPc i s } ∧
      Flag.zero.get t.p = decide (s.a &&& m = 0#8) ∧ Flag.overflow.get t.p = m.getLsbD 6 ∧
      Flag.negative.get t.p = m.getLsbD 7 ∧
      ∀ f : Flag, f ∉ [.zero, .overflow, .negative] → f.get t.p = f.get s.p

/-- CMP, CPX and CPY have exactly the opcodes and modes of their rules. For every form and every state with
operand byte m and register value r, exec answers a state that differs only in P and PC; C is r >= m unsigned, Z
is r = m, N is bit 7 of r - m modulo 256, whatever C and D were, and every other flag is unchanged. (R544, R545,
R546, R547) -/
def Obligations.ComparesSetFlagsFromTheDifferenceOnly : Prop :=
  HasEncodings .cmp
    [(0xC9#8, .immediate), (0xC5#8, .zeroPage), (0xD5#8, .zeroPageX), (0xCD#8, .absolute),
     (0xDD#8, .absoluteX), (0xD9#8, .absoluteY), (0xC1#8, .indirectX), (0xD1#8, .indirectY)] ∧
  HasEncodings .cpx [(0xE0#8, .immediate), (0xE4#8, .zeroPage), (0xEC#8, .absolute)] ∧
  HasEncodings .cpy [(0xC0#8, .immediate), (0xC4#8, .zeroPage), (0xCC#8, .absolute)] ∧
  ∀ (i : Instr) (s : State) (r : Byte),
    (i.op = .cmp ∧ r = s.a ∨ i.op = .cpx ∧ r = s.x ∨ i.op = .cpy ∧ r = s.y) →
    ∃ m t, operandValue s i.operand = some m ∧ exec i s = .next t ∧
      t = { s with p := t.p, pc := nextPc i s } ∧
      Flag.carry.get t.p = decide (m.toNat ≤ r.toNat) ∧ Flag.zero.get t.p = decide (r = m) ∧
      Flag.negative.get t.p = decide ((r.toNat + 256 - m.toNat) % 256 ≥ 128) ∧
      ∀ f : Flag, f ∉ [.carry, .zero, .negative] → f.get t.p = f.get s.p

/-- Each branch is its opcode byte and the offset byte. In every state exec answers the state with PC = (PC + 2
+ signed offset) mod 65536 when its flag has the value of its rule, and PC + 2 modulo 65536 when not; nothing
but PC changes. (R560, R561, R562, R563, R564, R565, R566, R567, R568) -/
def Obligations.BranchesTakeTheirTargetOnTheirFlag : Prop :=
  (∀ (pc : Word) (off : Byte),
    ((eaRelative off (pc + 2#16)).toNat : Int) = ((pc.toNat : Int) + 2 + signed8 off) % 65536) ∧
  ∀ (off : Byte) (s : State),
    (encode (.bpl off) = [0x10#8, off] ∧ exec (.bpl off) s = .next
      { s with pc := if Flag.negative.get s.p = false then eaRelative off (s.pc + 2#16) else s.pc + 2#16 }) ∧
    (encode (.bmi off) = [0x30#8, off] ∧ exec (.bmi off) s = .next
      { s with pc := if Flag.negative.get s.p = true then eaRelative off (s.pc + 2#16) else s.pc + 2#16 }) ∧
    (encode (.bvc off) = [0x50#8, off] ∧ exec (.bvc off) s = .next
      { s with pc := if Flag.overflow.get s.p = false then eaRelative off (s.pc + 2#16) else s.pc + 2#16 }) ∧
    (encode (.bvs off) = [0x70#8, off] ∧ exec (.bvs off) s = .next
      { s with pc := if Flag.overflow.get s.p = true then eaRelative off (s.pc + 2#16) else s.pc + 2#16 }) ∧
    (encode (.bcc off) = [0x90#8, off] ∧ exec (.bcc off) s = .next
      { s with pc := if Flag.carry.get s.p = false then eaRelative off (s.pc + 2#16) else s.pc + 2#16 }) ∧
    (encode (.bcs off) = [0xB0#8, off] ∧ exec (.bcs off) s = .next
      { s with pc := if Flag.carry.get s.p = true then eaRelative off (s.pc + 2#16) else s.pc + 2#16 }) ∧
    (encode (.bne off) = [0xD0#8, off] ∧ exec (.bne off) s = .next
      { s with pc := if Flag.zero.get s.p = false then eaRelative off (s.pc + 2#16) else s.pc + 2#16 }) ∧
    (encode (.beq off) = [0xF0#8, off] ∧ exec (.beq off) s = .next
      { s with pc := if Flag.zero.get s.p = true then eaRelative off (s.pc + 2#16) else s.pc + 2#16 })

/-- 4C with operand w jumps to w; 6C with operand ptr jumps to the word whose low byte is at ptr and whose high
byte is in the same page, at ptr with its low byte plus one modulo 256; nothing but PC changes. (R580) -/
def Obligations.JmpGoesToItsTarget : Prop :=
  ∀ (w : Word) (s : State),
    (encode (.jmpAbs w) = [0x4C#8, loByte w, hiByte w] ∧ exec (.jmpAbs w) s = .next { s with pc := w }) ∧
    (encode (.jmpInd w) = [0x6C#8, loByte w, hiByte w] ∧ exec (.jmpInd w) s =
      .next { s with pc := hiLo (s.read (hiLo (hiByte w) (loByte w + 1#8))) (s.read w) })

/-- 20 with operand w: exec answers a state with PC = w, SP two less modulo 256, the high byte of PC + 2 (the
address of its last byte) stored at 0x0100 + SP and the low byte at 0x0100 + (SP - 1), SP wrapping in 8 bits,
every other byte reading as before and every other register unchanged. The target is the instruction's operand,
whatever the pushes overwrite. (R581) -/
def Obligations.JsrPushesItsLastByteAddressAndJumps : Prop :=
  ∀ (w : Word) (s : State), encode (.jsr w) = [0x20#8, loByte w, hiByte w] ∧
    ∃ t, exec (.jsr w) s = .next t ∧ t = { s with mem := t.mem, sp := s.sp - 2#8, pc := w } ∧
      ∀ k : Word, t.read k =
        if k = State.stackAddr s.sp then hiByte (s.pc + 2#16)
        else if k = State.stackAddr (s.sp - 1#8) then loByte (s.pc + 2#16) else s.read k

/-- RTS: PC is the word at the next two stack bytes (low byte first) plus one modulo 65536 and SP is two more.
RTI: P takes bits 7, 6, 3, 2, 1, 0 of the next stack byte and keeps its own bits 5 and 4, PC is the word at the
following two stack bytes and SP is three more. SP wraps in 8 bits; nothing else changes. (R582, R583) -/
def Obligations.RtsAndRtiReturnFromTheStack : Prop :=
  ∀ s : State,
    (encode .rts = [0x60#8] ∧ exec .rts s = .next { s with
      sp := s.sp + 2#8,
      pc := hiLo (s.read (State.stackAddr (s.sp + 2#8))) (s.read (State.stackAddr (s.sp + 1#8))) + 1#16 }) ∧
    (encode .rti = [0x40#8] ∧ exec .rti s = .next { s with
      sp := s.sp + 3#8,
      p := (s.read (State.stackAddr (s.sp + 1#8)) &&& 0xCF#8) ||| (s.p &&& 0x30#8),
      pc := hiLo (s.read (State.stackAddr (s.sp + 3#8))) (s.read (State.stackAddr (s.sp + 2#8))) })

/-- Let t be the state after JSR at PC. From any state u with SP as in t and the two pushed bytes reading as in
t, whatever else the subroutine changed, RTS answers a state whose PC is the JSR's PC plus 3 modulo 65536 and
whose SP is the SP before the JSR. (48_jump_subroutine.md (R581, R582)) -/
def Obligations.RtsReturnsToTheInstructionAfterJsr : Prop :=
  ∀ (s t u : State) (w : Word), exec (.jsr w) s = .next t → u.sp = t.sp →
    (∀ k ∈ [State.stackAddr s.sp, State.stackAddr (s.sp - 1#8)], u.read k = t.read k) →
    ∃ v, exec .rts u = .next v ∧ v.pc = s.pc + 3#16 ∧ v.sp = s.sp

/-- BRK is the byte 00 with mode NoneAddressing. In every state exec answers the state with RS Halted, FR
Brk(PC) and PC one more, everything else (the stack, P, memory) unchanged; from a Running state with 00 at PC,
step answers that state and reports not running. (R584) -/
def Obligations.BrkHaltsAndWritesNothingElse : Prop :=
  encode .brk = [0x00#8] ∧ Instr.brk.mode = .noneAddressing ∧
  (∀ s : State, exec .brk s = .next { s with pc := s.pc + 1#16, rs := .halted, fr := .brk s.pc }) ∧
  (∀ s : State, s.rs = .running → s.read s.pc = 0x00#8 → ∃ t, step s = .next t ∧ t.isRunning = false ∧
    t = { s with pc := s.pc + 1#16, rs := .halted, fr := .brk s.pc })

/-- PHA (48) stores A, PHP (08) stores P or 0x30, at 0x0100 + SP; SP is one less modulo 256, PC one more, every
other byte reads as before, and P and the other registers are unchanged. (R600, R601) -/
def Obligations.PhaAndPhpPushOneByte : Prop :=
  ∀ s : State,
    (encode .pha = [0x48#8] ∧ ∃ t, exec .pha s = .next t ∧ StoredByte s t (State.stackAddr s.sp) s.a ∧
      t = { s with mem := t.mem, sp := s.sp - 1#8, pc := s.pc + 1#16 }) ∧
    (encode .php = [0x08#8] ∧ ∃ t, exec .php s = .next t ∧
      StoredByte s t (State.stackAddr s.sp) (s.p ||| 0x30#8) ∧
      t = { s with mem := t.mem, sp := s.sp - 1#8, pc := s.pc + 1#16 })

/-- With v the byte at 0x0100 + (SP + 1), SP wrapping in 8 bits: PLA (68) gives A = v and P = UpdateZN(v); PLP
(28) gives P = (v and 0xCF) or (P and 0x30). SP and PC are one more and nothing else changes. (R602, R603) -/
def Obligations.PlaAndPlpPullOneByte : Prop :=
  ∀ s : State, let v := s.read (State.stackAddr (s.sp + 1#8))
    (encode .pla = [0x68#8] ∧ exec .pla s =
      .next { s with a := v, p := updateZN v s.p, sp := s.sp + 1#8, pc := s.pc + 1#16 }) ∧
    (encode .plp = [0x28#8] ∧ exec .plp s =
      .next { s with p := (v &&& 0xCF#8) ||| (s.p &&& 0x30#8), sp := s.sp + 1#8, pc := s.pc + 1#16 })

/-- Let t be the state after PHP (PHA) in s. From any state u with SP as in t and the pushed byte reading as in
t, and for PLP with bits 4 and 5 of P as in s, PLP (PLA) answers a state whose P (A) is the one s had and whose
SP is the one s had. (49_stack_flags.md section 1 (R600 to R603), 20_memory.md section 3 (R210, R211)) -/
def Obligations.PullsUndoPushes : Prop :=
  ∀ s t u : State,
    (exec .php s = .next t → u.sp = t.sp →
      u.read (State.stackAddr s.sp) = t.read (State.stackAddr s.sp) → u.p &&& 0x30#8 = s.p &&& 0x30#8 →
      ∃ v, exec .plp u = .next v ∧ v.p = s.p ∧ v.sp = s.sp) ∧
    (exec .pha s = .next t → u.sp = t.sp →
      u.read (State.stackAddr s.sp) = t.read (State.stackAddr s.sp) →
      ∃ v, exec .pla u = .next v ∧ v.a = s.a ∧ v.sp = s.sp)

/-- Each is one byte with the opcode of its rule; in every state it clears or sets its one bit of P (C bit 0, I
bit 2, V bit 6, D bit 3), leaves the other seven bits, adds one to PC, and changes nothing else. After CLD, ADC
and SBC are binary; after SED they are decimal exactly when DECIMAL_MODE is Nmos. (R610, R611, R612, R613, R614,
R615, R616) -/
def Obligations.FlagInstructionsWriteOneBitOfP : Prop :=
  (∀ s : State,
    (encode .clc = [0x18#8] ∧
      exec .clc s = .next { s with p := s.p &&& 0xFE#8, pc := s.pc + 1#16 }) ∧
    (encode .sec = [0x38#8] ∧
      exec .sec s = .next { s with p := s.p ||| 0x01#8, pc := s.pc + 1#16 }) ∧
    (encode .cli = [0x58#8] ∧
      exec .cli s = .next { s with p := s.p &&& 0xFB#8, pc := s.pc + 1#16 }) ∧
    (encode .sei = [0x78#8] ∧
      exec .sei s = .next { s with p := s.p ||| 0x04#8, pc := s.pc + 1#16 }) ∧
    (encode .clv = [0xB8#8] ∧
      exec .clv s = .next { s with p := s.p &&& 0xBF#8, pc := s.pc + 1#16 }) ∧
    (encode .cld = [0xD8#8] ∧
      exec .cld s = .next { s with p := s.p &&& 0xF7#8, pc := s.pc + 1#16 }) ∧
    (encode .sed = [0xF8#8] ∧
      exec .sed s = .next { s with p := s.p ||| 0x08#8, pc := s.pc + 1#16 })) ∧
  (∀ s t : State, (exec .cld s = .next t → t.decimal = false) ∧
    (exec .sed s = .next t → (t.decimal = true ↔ s.config.decimal = .nmos)))

/-- NOP is the byte EA; in every state exec answers the state with PC one more and nothing else changed. (R620)
-/
def Obligations.NopOnlyAdvancesPc : Prop :=
  encode .nop = [0xEA#8] ∧ ∀ s : State, exec .nop s = .next { s with pc := s.pc + 1#16 }

/-- In every state: Immediate is PC + 1 mod 65536; ZeroPage b is b; ZeroPageX and ZeroPageY are (b + index) mod
256; Absolute w is w; AbsoluteX and AbsoluteY are (w + index) mod 65536; Relative is (PC + 2 + signed offset)
mod 65536; IndirectX reads its pointer at z = (b + X) mod 256 and (z + 1) mod 256; IndirectY reads its pointer
at b and (b + 1) mod 256 and adds Y mod 65536; Indirect w reads its low byte at w and its high byte in the page
of w, at w with its low byte plus one modulo 256; the operand-less modes have none.
(40_execution_and_addressing.md section 2 (R410 to R422), 20_memory.md section 1 (R205)) -/
def Obligations.EffectiveAddressesOfEveryMode : Prop :=
  ∀ (s : State) (b : Byte) (w : Word),
    let byteAt := fun (n : Nat) => (s.read (BitVec.ofNat 16 n)).toNat
    let zp := fun (z : Nat) => byteAt ((z + 1) % 256) * 256 + byteAt (z % 256)
    let ea := fun (o : Operand) => (operandEa s o).map BitVec.toNat
    ea (.immediate b) = some ((s.pc.toNat + 1) % 65536) ∧
    ea (.zeroPage b) = some b.toNat ∧
    ea (.zeroPageX b) = some ((b.toNat + s.x.toNat) % 256) ∧
    ea (.zeroPageY b) = some ((b.toNat + s.y.toNat) % 256) ∧
    ea (.absolute w) = some w.toNat ∧
    ea (.absoluteX w) = some ((w.toNat + s.x.toNat) % 65536) ∧
    ea (.absoluteY w) = some ((w.toNat + s.y.toNat) % 65536) ∧
    (ea (.relative b)).map Int.ofNat = some (((s.pc.toNat : Int) + 2 + signed8 b) % 65536) ∧
    ea (.indirectX b) = some (zp ((b.toNat + s.x.toNat) % 256)) ∧
    ea (.indirectY b) = some ((zp b.toNat + s.y.toNat) % 65536) ∧
    ea (.indirect w) =
      some (byteAt (w.toNat / 256 * 256 + (w.toNat % 256 + 1) % 256) * 256 + byteAt w.toNat) ∧
    ea .implied = none ∧ ea .noneAddressing = none

/-- In every state and for every pointer address ptr: if its low byte is not 0xFF the effective address is
MemRead(ptr, 2); if it is 0xFF, the low byte is the byte at ptr and the high byte is the byte at the start of
ptr's page, ptr - 0xFF. (40_execution_and_addressing.md section 2 (R418)) -/
def Obligations.IndirectPointerWrapsWithinItsPage : Prop :=
  ∀ (s : State) (ptr : Word),
    (ptr.toNat % 256 ≠ 255 → operandEa s (.indirect ptr) = some (s.read16 ptr)) ∧
    (ptr.toNat % 256 = 255 →
      operandEa s (.indirect ptr) = some (hiLo (s.read (ptr - 0xFF#16)) (s.read ptr)))

/-- In every state: a 16-bit read is the byte at the address after (modulo 65536) times 256 plus the byte at the
address; a 16-bit write stores the low byte at the address and the high byte at the next (modulo 65536), changes
no other byte and no register, equals the two byte writes in either order as far as any read can tell, and reads
back the value at every address, 0xFFFF included. (R203, R204) -/
def Obligations.SixteenBitAccessesAreLittleEndianAndRoundTrip : Prop :=
  ∀ (s : State) (addr v : Word),
    (s.read16 addr).toNat =
      (s.read (BitVec.ofNat 16 ((addr.toNat + 1) % 65536))).toNat * 256 + (s.read addr).toNat ∧
    s.write16 addr v = (s.write addr (loByte v)).write (addr + 1#16) (hiByte v) ∧
    (∀ k : Word, (s.write16 addr v).read k =
      if k = addr then loByte v else if k = addr + 1#16 then hiByte v else s.read k) ∧
    (∀ k : Word, (s.write16 addr v).read k =
      ((s.write (addr + 1#16) (hiByte v)).write addr (loByte v)).read k) ∧
    s.write16 addr v = { s with mem := (s.write16 addr v).mem } ∧
    (s.write16 addr v).read16 addr = v

/-- In every state and for every byte zp, MemReadZP16(zp) is the byte at (zp + 1) mod 256 times 256 plus the
byte at zp, and the effective addresses of ZeroPage, ZeroPageX and ZeroPageY lie below 0x0100. (20_memory.md
section 1 (R205), 40_execution_and_addressing.md section 2 (R413)) -/
def Obligations.ZeroPagePointersWrapInTheZeroPage : Prop :=
  ∀ (s : State) (zp : Byte),
    (s.readZp16 zp).toNat =
      (s.read (BitVec.ofNat 16 ((zp.toNat + 1) % 256))).toNat * 256 + (s.read (BitVec.ofNat 16 zp.toNat)).toNat ∧
    (∀ o ∈ [Operand.zeroPage zp, .zeroPageX zp, .zeroPageY zp],
      ∃ ea, operandEa s o = some ea ∧ ea.toNat < 0x100)

/-- In every state, for every address and byte, MemWrite answers a state in which the address reads as the byte
and every other address as before, and no register changes. (R201, R202) -/
def Obligations.ByteWriteChangesOneByte : Prop :=
  ∀ (s : State) (addr : Word) (v : Byte),
    StoredByte s (s.write addr v) addr v ∧ s.write addr v = { s with mem := (s.write addr v).mem }

/-- If two memories in canonical form give the same byte at every address below 65536 they are the same list:
the representation adds nothing to the array the spec describes. (20_memory.md section 1 (R200)) -/
def Obligations.CanonicalMemoriesThatReadAlikeAreEqual : Prop :=
  ∀ m n : Memory, m.wf → n.wf → (∀ k < 65536, m.read k = n.read k) → m = n

/-- In every state: Push(v) stores v at 0x0100 + SP and leaves SP one less modulo 256; Pull gives SP one more
modulo 256 and the byte then at 0x0100 + SP, and changes no memory; Push16 pushes the high byte then the low
byte; Pull16 pulls the low byte then the high byte; Pull16 after Push16 gives the word back with SP restored;
the stack address is 0x0100 + SP, at least 0x0100 and at most 0x01FF. (R210, R211, R212, R213) -/
def Obligations.PushAndPullStayInTheStackPage : Prop :=
  ∀ (s : State) (v : Byte) (w : Word),
    (State.stackAddr s.sp).toNat = 0x100 + s.sp.toNat ∧ (State.stackAddr s.sp).toNat ≤ 0x1FF ∧
    StoredByte s (s.push v) (State.stackAddr s.sp) v ∧
    s.push v = { s with mem := (s.push v).mem, sp := s.sp - 1#8 } ∧
    s.pull = (s.read (State.stackAddr (s.sp + 1#8)), { s with sp := s.sp + 1#8 }) ∧
    s.push16 w = (s.push (hiByte w)).push (loByte w) ∧
    s.pull16 = (hiLo s.pull.2.pull.1 s.pull.1, { s with sp := s.sp + 2#8 }) ∧
    (s.push16 w).pull16.1 = w ∧ (s.push16 w).pull16.2.sp = s.sp

/-- For every result byte v and every P, after UpdateZN(v) Z is set exactly when v = 0, N exactly when v and
0x80 is not 0, and the other six bits of P are as before. Every operation for which R121 gives N and Z as
computed and no other flag leaves P = UpdateZN of a result. (R430) -/
def Obligations.UpdateZNWritesZeroAndNegativeOnly : Prop :=
  (∀ v p : Byte,
    Flag.zero.get (updateZN v p) = decide (v = 0#8) ∧
    Flag.negative.get (updateZN v p) = decide (v &&& 0x80#8 ≠ 0#8) ∧
    updateZN v p &&& 0x7D#8 = p &&& 0x7D#8) ∧
  (∀ i : Instr, flagsWritten i.op = [.negative, .zero] → ∀ s : State,
    ∃ v t, exec i s = .next t ∧ t.p = updateZN v s.p)

/-- For every P, mask and bit: set(mask) sets exactly the mask's bits and clear(mask) clears exactly them, every
other bit as before; is_set(mask) is whether all the mask's bits are set, and is refused as ZeroFlagMask when
the mask is 0. (10_state.md section 2 (R111, R112), 60_exceptions.md section 1 (R705)) -/
def Obligations.StatusRegisterAccessContract : Prop :=
  ∀ mask p : Byte,
    (∀ k < 8, (setMask mask p).getLsbD k = (mask.getLsbD k || p.getLsbD k)) ∧
    (∀ k < 8, (clearMask mask p).getLsbD k = (!mask.getLsbD k && p.getLsbD k)) ∧
    isSetMask 0#8 p = .error .zeroFlagMask ∧
    (mask ≠ 0#8 → ∃ b, isSetMask mask p = .ok b ∧
      (b = true ↔ ∀ k < 8, mask.getLsbD k = true → p.getLsbD k = true))

/-- For every state s, step answers a state whose memory is the memory of s after the writes of the step's
access list, in order; so every address outside those writes reads as before. The access list names the
addresses with the functions the meanings use, and it holds at most five accesses, of which at most two are
writes. That the list is computed beside the step, from the state before it, is the model's inference (log entry
12, DEDUCED). (40_execution_and_addressing.md section 3 (R425), 40_execution_and_addressing.md section 1 (R401))
-/
def Obligations.StepChangesMemoryOnlyByItsListedWrites : Prop :=
  ∀ s : State, ∃ t, step s = .next t ∧ t.mem = applyWrites (stepAccesses s) s.mem ∧
    (∀ k : Word, k ∉ (stepAccesses s).filterMap Access.writeAddr → t.read k = s.read k) ∧
    (stepAccesses s).length ≤ 5 ∧ ((stepAccesses s).filterMap Access.writeAddr).length ≤ 2

/-- Replace the memory of any state by one that agrees with it on the addresses the step reads. Then the step
makes the same accesses, and answers the same state but for the memory, which is the replacing memory after the
same writes. That the list of accesses is computed beside the step, from the state before it, is the model's
inference (log entry 12, DEDUCED). (40_execution_and_addressing.md section 3 (R425),
40_execution_and_addressing.md section 1 (R405)) -/
def Obligations.StepDependsOnlyOnTheBytesItReads : Prop :=
  ∀ (s : State) (m : Memory),
    (∀ k ∈ (stepAccesses s).filterMap Access.readAddr, m.read k.toNat = s.read k) →
    ∃ t, step s = .next t ∧ stepAccesses (s.setMem m) = stepAccesses s ∧
      step (s.setMem m) = .next (t.setMem (applyWrites (stepAccesses s) m))

/-- For every instruction and state, exec answers a state in which A is unchanged unless the instruction is LDA,
TXA, TYA, PLA, ADC, SBC, AND, ORA, EOR or the accumulator form of a shift; X unless LDX, TAX, TSX, INX, DEX; Y
unless LDY, TAY, INY, DEY; SP unless TXS, PHA, PHP, PLA, PLP, JSR, RTS, RTI. (10_state.md section 1 (R101, R102,
R103, R104)) -/
def Obligations.RegistersAreWrittenOnlyByTheListedInstructions : Prop :=
  ∀ (i : Instr) (s : State), ∃ t, exec i s = .next t ∧
    (i.op ∉ [.lda, .txa, .tya, .pla, .adc, .sbc, .and, .ora, .eor] →
      ¬(i.op ∈ [.asl, .lsr, .rol, .ror] ∧ i.mode = .implied) → t.a = s.a) ∧
    (i.op ∉ [.ldx, .tax, .tsx, .inx, .dex] → t.x = s.x) ∧
    (i.op ∉ [.ldy, .tay, .iny, .dey] → t.y = s.y) ∧
    (i.op ∉ [.txs, .pha, .php, .pla, .plp, .jsr, .rts, .rti] → t.sp = s.sp)

/-- For every instruction and state, exec answers a state in which every flag R121 marks unchanged for the
operation is as before (B and U for every operation); and N is 0 after LSR, N and V are bits 7 and 6 of the
operand after BIT, C is 0 after CLC and 1 after SEC, I is 0 after CLI and 1 after SEI, V is 0 after CLV, D is 0
after CLD and 1 after SED, and every flag but B and U is the pulled byte's after PLP and RTI. (R121) -/
def Obligations.FlagsAreWrittenOnlyAsTheSummaryTableSays : Prop :=
  ∀ (i : Instr) (s : State), ∃ t, exec i s = .next t ∧
    (∀ f : Flag, f ∉ flagsWritten i.op → f.get t.p = f.get s.p) ∧
    Flag.brk ∉ flagsWritten i.op ∧ Flag.unused ∉ flagsWritten i.op ∧
    (i.op = .lsr → Flag.negative.get t.p = false) ∧
    (i.op = .bit → ∃ m, operandValue s i.operand = some m ∧
      Flag.negative.get t.p = m.getLsbD 7 ∧ Flag.overflow.get t.p = m.getLsbD 6) ∧
    (i.op = .clc → Flag.carry.get t.p = false) ∧ (i.op = .sec → Flag.carry.get t.p = true) ∧
    (i.op = .cli → Flag.interruptDisable.get t.p = false) ∧
    (i.op = .sei → Flag.interruptDisable.get t.p = true) ∧
    (i.op = .clv → Flag.overflow.get t.p = false) ∧
    (i.op = .cld → Flag.decimalMode.get t.p = false) ∧ (i.op = .sed → Flag.decimalMode.get t.p = true) ∧
    (i.op = .plp ∨ i.op = .rti → ∀ f ∈ flagsWritten i.op,
      f.get t.p = f.get (s.read (State.stackAddr (s.sp + 1#8))))

/-- For every instruction and state, exec answers a state with RS and FR unchanged unless the instruction is
BRK, and with the parameters and the list of diagnostics unchanged; a step never changes the parameters. That
the parameters and the list stand in the state is the model's choice (log entries 2 and 3). (60_exceptions.md
section 1 (R700, R701), 10_state.md section 3 (R130, R131, R133)) -/
def Obligations.RunStateAndRecordChangeOnlyByBrk : Prop :=
  (∀ (i : Instr) (s : State), ∃ t, exec i s = .next t ∧
    (i.op ≠ .brk → t.rs = s.rs ∧ t.fr = s.fr) ∧ t.config = s.config ∧ t.diagnostics = s.diagnostics) ∧
  (∀ s : State, ∃ t, step s = .next t ∧ t.config = s.config)

/-- From every legal state, step answers a legal state. Legal means: memory in canonical form; FR None while
Running, Brk when Halted, IllegalOpcode when Faulted; bits 4 and 5 of P are 0; under the strict policy no
diagnostic has been emitted. (10_state.md section 2 (R117, R118), 10_state.md section 3 (R131, R132),
20_memory.md section 1 (R200)) -/
def Obligations.EveryStepKeepsTheStateLegal : Prop :=
  ∀ s : State, s.Legal → ∃ t, step s = .next t ∧ t.Legal

/-- State.reset and new with any parameters are legal, and from a legal state the host's reset, write, write_u16
and an accepted load give a legal state. That State.reset is the reset of a new core with nothing loaded is the
model's choice (log entry 5). (70_reset_and_hazards.md section 1 (R800, R801, R802), 10_state.md section 4
(R135)) -/
def Obligations.ResetNewAndHostCallsGiveLegalStates : Prop :=
  State.reset.Legal ∧ (∀ c : Config, (State.new c).Legal) ∧
  (∀ s : State, s.Legal → s.hostReset.Legal ∧ (∀ (k : Word) (v : Byte), (s.write k v).Legal) ∧
    (∀ k v : Word, (s.write16 k v).Legal) ∧
    (∀ (program : List Byte) (t : State), s.load program = .next t → t.Legal))

/-- new with any parameters gives PC 0, SP 0xFD, A = X = Y = 0, P 0, RS Running, FR None and every byte 0; a
step right after new with BRK's byte at 0 halts with PC 1. reset in any state, in any run state, sets PC to the
16-bit value at 0xFFFC, A = X = Y = 0, SP 0xFD, P 0, RS Running, FR None, and leaves every byte; State.reset is
the reset of a new core with the default parameters. That the parameters stand in the state and that State.reset
takes their defaults (log entry 2), that reset keeps the list of diagnostics (log entry 3), and that State.reset
is a reset with nothing loaded (log entry 5) are the model's choices. (70_reset_and_hazards.md section 1 (R800,
R802), 10_state.md section 4 (R135)) -/
def Obligations.NewAndResetGiveTheStatedValues : Prop :=
  (∀ c : Config, let s := State.new c
    s.pc = 0#16 ∧ s.sp = 0xFD#8 ∧ s.a = 0#8 ∧ s.x = 0#8 ∧ s.y = 0#8 ∧ s.p = 0#8 ∧ s.rs = .running ∧
    s.fr = .none ∧ (∀ k : Word, s.read k = 0#8) ∧ s.config = c ∧
    step s = .next { s with pc := 1#16, rs := .halted, fr := .brk 0#16 }) ∧
  (∀ s : State, s.hostReset = { s with
    pc := s.read16 0xFFFC#16, a := 0#8, x := 0#8, y := 0#8, sp := 0xFD#8, p := 0#8, rs := .running,
    fr := .none }) ∧
  State.reset = (State.new Config.default).hostReset

/-- In every state: a program of at most 0x8000 bytes is accepted, and then 0xFFFC reads 0x00 and 0xFFFD reads
0x80 (whatever program bytes lay there), the other addresses from 0x8000 on below the program's end read its
bytes, every other byte and every register, RS and FR are unchanged; a reset after it gives PC 0x8000 and A = X
= Y = 0. A longer program is refused as ProgramTooLarge, with no next state. (R801, R706, R805) -/
def Obligations.LoadPlacesTheProgramThenTheVector : Prop :=
  ∀ (s : State) (program : List Byte),
    (program.length ≤ 0x8000 → ∃ t, s.load program = .next t ∧ t = { s with mem := t.mem } ∧
      (∀ k : Word, t.read k =
        if k = 0xFFFC#16 then 0x00#8 else if k = 0xFFFD#16 then 0x80#8
        else if 0x8000 ≤ k.toNat ∧ k.toNat - 0x8000 < program.length
          then program.getD (k.toNat - 0x8000) 0#8
        else s.read k) ∧
      t.hostReset.pc = 0x8000#16 ∧ t.hostReset.a = 0#8 ∧ t.hostReset.x = 0#8 ∧ t.hostReset.y = 0#8) ∧
    (program.length > 0x8000 → s.load program = .refused (.programTooLarge program.length))

/-- With no reading left run answers the state it is given, unfinished. With a reading b first, it takes one
step, to t: when t is not Running it answers t, ended; when t is Running and b is true it answers t, stopped;
otherwise it is the run from t with the later readings. So for every list of readings and every state run
answers a result: ended means RS is Halted or Faulted; stopped means RS is Running and a reading was true;
unfinished from a Running state means RS is Running; and a run whose readings are used up resumes: running on
with more readings gives what one run with all of them gives. load_and_run of a program that load accepts is the
run from the reset of the loaded state; a longer program is refused as load refuses it. The list of readings
that bounds a run, and that the signal is first looked at after the first step, are the model's choice (log
entry 9). (40_execution_and_addressing.md section 1 (R404), 60_exceptions.md section 1 (R706), 60_exceptions.md
section 3 (R722, R723)) -/
def Obligations.RunReturnsAtTheEndOrTheStopSignalAndMayResume : Prop :=
  (∀ s : State, run [] s = .next { state := s, how := .unfinished }) ∧
  (∀ (b : Bool) (later : List Bool) (s : State), ∃ t, step s = .next t ∧
    (t.rs ≠ .running → run (b :: later) s = .next { state := t, how := .ended }) ∧
    (t.rs = .running → b = true → run (b :: later) s = .next { state := t, how := .stopped }) ∧
    (t.rs = .running → b = false → run (b :: later) s = run later t)) ∧
  (∀ (signal : List Bool) (s : State), ∃ r, run signal s = .next r ∧
    (r.how = .ended → r.state.rs = .halted ∨ r.state.rs = .faulted) ∧
    (r.how = .stopped → r.state.rs = .running ∧ true ∈ signal) ∧
    (r.how = .unfinished → s.rs = .running → r.state.rs = .running)) ∧
  (∀ (signal later : List Bool) (s t : State),
    run signal s = .next { state := t, how := .unfinished } → run (signal ++ later) s = run later t) ∧
  (∀ (program : List Byte) (signal : List Bool) (s : State),
    (program.length ≤ 0x8000 → ∃ t, s.load program = .next t ∧
      loadAndRun program signal s = run signal t.hostReset) ∧
    (program.length > 0x8000 → loadAndRun program signal s = .refused (.programTooLarge program.length)))
end

