-- ==== Sys2Proof/Laws/Bits.lean ====
section
/-! SUPPORT. Byte order and extensions in terms of numbers (00_scope.md R11). -/

namespace Sys2Proof

theorem toNat_loByte (w : Word) : (loByte w).toNat = w.toNat % 256 := by
  simp [loByte, BitVec.extractLsb'_toNat]

theorem toNat_hiByte (w : Word) : (hiByte w).toNat = w.toNat / 256 := by
  have := w.isLt
  simp only [hiByte, BitVec.extractLsb'_toNat, Nat.shiftRight_eq_div_pow]
  omega

theorem toNat_hiLo (hi lo : Byte) : (hiLo hi lo).toNat = hi.toNat * 256 + lo.toNat := by
  have := lo.isLt
  rw [hiLo, BitVec.toNat_append, ← Nat.shiftLeft_add_eq_or_of_lt this, Nat.shiftLeft_eq]

@[simp] theorem loByte_hiLo (hi lo : Byte) : loByte (hiLo hi lo) = lo := by
  apply BitVec.eq_of_toNat_eq
  have := lo.isLt
  rw [toNat_loByte, toNat_hiLo]
  omega

@[simp] theorem hiByte_hiLo (hi lo : Byte) : hiByte (hiLo hi lo) = hi := by
  apply BitVec.eq_of_toNat_eq
  have := lo.isLt
  rw [toNat_hiByte, toNat_hiLo]
  omega

@[simp] theorem hiLo_hiByte_loByte (w : Word) : hiLo (hiByte w) (loByte w) = w := by
  apply BitVec.eq_of_toNat_eq
  rw [toNat_hiLo, toNat_hiByte, toNat_loByte]
  omega

theorem toNat_zext16 (b : Byte) : (zext16 b).toNat = b.toNat := by
  have := b.isLt
  simp only [zext16, BitVec.toNat_setWidth]
  omega

theorem zext16_injective {b c : Byte} (h : zext16 b = zext16 c) : b = c := by
  apply BitVec.eq_of_toNat_eq
  rw [← toNat_zext16, ← toNat_zext16, h]

namespace Machine.State

theorem toNat_stackAddr (sp : Byte) : (stackAddr sp).toNat = 0x100 + sp.toNat := by
  have := sp.isLt
  simp only [stackAddr, stackPage, BitVec.toNat_add, toNat_zext16]
  simp only [BitVec.toNat_ofNat]
  omega

theorem stackAddr_injective {a b : Byte} (h : stackAddr a = stackAddr b) : a = b := by
  apply BitVec.eq_of_toNat_eq
  have := congrArg BitVec.toNat h
  rw [toNat_stackAddr, toNat_stackAddr] at this
  omega

end Machine.State

end Sys2Proof
end

