-- ==== Sys2Proof/Laws/Decode.lean ====
section
/-! SUPPORT. The opcode table against the encoder: the two are written from different tables of the spec (R305 and
R306). -/

namespace Sys2Proof

/-- What an entry builds is encoded with the entry's opcode byte and the bytes it was built from. -/
def Entry.Encodes (op : Byte) : Entry → Prop
  | .unknown => True
  | .noOperand _ i => encode i = [op]
  | .byteOperand _ build => ∀ b, encode (build b) = [op, b]
  | .wordOperand _ build => ∀ w, encode (build w) = [op, loByte w, hiByte w]

/-- Every entry of the opcode table agrees with the encoder, byte by byte. -/
theorem opcodeTable_encodes (op : Byte) : (opcodeTable op).Encodes op := by
  have h : op.toNat < 256 := op.isLt
  rw [show op = BitVec.ofNat 8 op.toNat by simp]
  generalize op.toNat = n at h
  interval_cases n <;> first | exact trivial | exact rfl | exact fun _ => rfl

/-- The entry an instruction's opcode byte selects has its mode, and builds an instruction of its operation. -/
theorem opcodeTable_opcode (i : Instr) (b1 b2 : Byte) :
    (opcodeTable i.opcode).mode = some i.mode ∧
    ((opcodeTable i.opcode).instr b1 b2).map Instr.op = some i.op := by
  cases i <;> simp only [Instr.opcode] <;> exact ⟨rfl, rfl⟩

end Sys2Proof
end

