-- ==== Sys2Proof/Laws/Flags.lean ====
section
/-! SUPPORT. The status register flag by flag: what each flag computation does to each of the eight bits. -/

namespace Sys2Proof.Machine

namespace Flag

theorem bit_lt (f : Flag) : f.bit < 8 := by cases f <;> decide

theorem bit_injective {f g : Flag} (h : f.bit = g.bit) : f = g := by
  cases f <;> cases g <;> first | rfl | (exact absurd h (by decide))

theorem get_mask (f g : Flag) : g.get f.mask = decide (g = f) := by
  cases f <;> cases g <;> decide

/-- Writing one flag sets that flag and no other (10_state.md R111). -/
@[simp] theorem get_put (f g : Flag) (c : Bool) (p : Byte) : g.get (f.put c p) = if g = f then c else g.get p := by
  have hm : f.mask.getLsbD g.bit = decide (g = f) := get_mask f g
  have hb : g.bit < 8 := g.bit_lt
  unfold get put
  cases c
  · simp only [clearMask, Bool.false_eq_true, if_false, BitVec.getLsbD_and, BitVec.getLsbD_not, hm, hb]
    by_cases h : g = f <;> simp [h]
  · simp only [setMask, if_true, BitVec.getLsbD_or, hm]
    by_cases h : g = f <;> simp [h]

/-- Two status bytes with the same eight flags are equal. -/
theorem ext_get {p q : Byte} (h : ∀ f : Flag, f.get p = f.get q) : p = q := by
  apply BitVec.eq_of_getLsbD_eq
  intro k hk
  have h0 := h .carry; have h1 := h .zero; have h2 := h .interruptDisable; have h3 := h .decimalMode
  have h4 := h .brk; have h5 := h .unused; have h6 := h .overflow; have h7 := h .negative
  simp only [get, bit] at h0 h1 h2 h3 h4 h5 h6 h7
  rcases k with _ | _ | _ | _ | _ | _ | _ | _ | k <;> first | assumption | omega

end Flag

/-- `UpdateZN` flag by flag. -/
@[simp] theorem get_updateZN (f : Flag) (v p : Byte) :
    f.get (updateZN v p) =
      if f = .negative then v.getLsbD 7 else if f = .zero then v == 0#8 else f.get p := by
  simp [updateZN]

/-- `Compare` flag by flag. -/
@[simp] theorem get_compareFlags (f : Flag) (r m p : Byte) :
    f.get (compareFlags r m p) =
      if f = .negative then (r - m).getLsbD 7 else if f = .zero then r == m
      else if f = .carry then decide (r.toNat ≥ m.toNat) else f.get p := by
  simp [compareFlags]

/-- BIT's flags one by one. -/
@[simp] theorem get_bitFlags (f : Flag) (a m p : Byte) :
    f.get (bitFlags a m p) =
      if f = .negative then m.getLsbD 7 else if f = .overflow then m.getLsbD 6
      else if f = .zero then a &&& m == 0#8 else f.get p := by
  simp [bitFlags]

/-- The pulled status keeps bits 4 and 5 and takes the rest from the pulled byte. -/
@[simp] theorem get_pulledStatus (f : Flag) (v p : Byte) :
    f.get (pulledStatus v p) = if f = .brk ∨ f = .unused then f.get p else f.get v := by
  cases f <;> simp [pulledStatus, Flag.get, Flag.bit]

/-- The pushed status has bits 4 and 5 set and the rest from P. -/
@[simp] theorem get_pushedStatus (f : Flag) (p : Byte) :
    f.get (pushedStatus p) = if f = .brk ∨ f = .unused then true else f.get p := by
  cases f <;> simp [pushedStatus, Flag.get, Flag.bit]

/-- `AddBinary` flag by flag. -/
theorem get_addBinary (f : Flag) (a b p : Byte) :
    f.get (addBinary a b p).2 =
      if f = .negative then (addBinary a b p).1.getLsbD 7 else if f = .zero then (addBinary a b p).1 == 0#8
      else if f = .overflow then
        ((a ^^^ (addBinary a b p).1) &&& (b ^^^ (addBinary a b p).1)) &&& 0x80#8 != 0#8
      else if f = .carry then decide (a.toNat + b.toNat + carryIn p > 0xFF) else f.get p := by
  simp [addBinary]

/-- `SubDecimal` has the flags of the binary subtraction (43_arithmetic.md R484), flag by flag. -/
theorem get_subDecimal (f : Flag) (a m p : Byte) :
    f.get (subDecimal a m p).2 = f.get (addBinary a (m ^^^ 0xFF#8) p).2 := by
  cases f <;> simp [subDecimal, addBinary]

/-- `AddBinary` writes N, V, Z and C only. -/
theorem get_addBinary_of_other (f : Flag) (a b p : Byte)
    (h : f ∉ [Flag.negative, .overflow, .zero, .carry]) : f.get (addBinary a b p).2 = f.get p := by
  simp only [List.mem_cons, List.not_mem_nil, or_false, not_or] at h
  simp [addBinary, h]

/-- `AddDecimal` writes N, V, Z and C only. -/
theorem get_addDecimal_of_other (f : Flag) (a m p : Byte)
    (h : f ∉ [Flag.negative, .overflow, .zero, .carry]) : f.get (addDecimal a m p).2 = f.get p := by
  simp only [List.mem_cons, List.not_mem_nil, or_false, not_or] at h
  simp [addDecimal, h]

/-- `SubDecimal` writes N, V, Z and C only. -/
theorem get_subDecimal_of_other (f : Flag) (a m p : Byte)
    (h : f ∉ [Flag.negative, .overflow, .zero, .carry]) : f.get (subDecimal a m p).2 = f.get p := by
  simp only [List.mem_cons, List.not_mem_nil, or_false, not_or] at h
  simp [subDecimal, h]

end Sys2Proof.Machine
end

