-- ==== Sys2Proof/Laws/State.lean ====
section
/-! SUPPORT. What each state update does to each field of State, one lemma per field and update, so that no later
proof unfolds a record update. -/

namespace Sys2Proof.Machine.State

@[simp] theorem setPc_pc (s : State) (v : Word) : (s.setPc v).pc = v := rfl
@[simp] theorem setPc_sp (s : State) (v : Word) : (s.setPc v).sp = s.sp := rfl
@[simp] theorem setPc_a (s : State) (v : Word) : (s.setPc v).a = s.a := rfl
@[simp] theorem setPc_x (s : State) (v : Word) : (s.setPc v).x = s.x := rfl
@[simp] theorem setPc_y (s : State) (v : Word) : (s.setPc v).y = s.y := rfl
@[simp] theorem setPc_p (s : State) (v : Word) : (s.setPc v).p = s.p := rfl
@[simp] theorem setPc_rs (s : State) (v : Word) : (s.setPc v).rs = s.rs := rfl
@[simp] theorem setPc_fr (s : State) (v : Word) : (s.setPc v).fr = s.fr := rfl
@[simp] theorem setPc_mem (s : State) (v : Word) : (s.setPc v).mem = s.mem := rfl
@[simp] theorem setPc_diagnostics (s : State) (v : Word) : (s.setPc v).diagnostics = s.diagnostics := rfl
@[simp] theorem setPc_config (s : State) (v : Word) : (s.setPc v).config = s.config := rfl

@[simp] theorem setSp_pc (s : State) (v : Byte) : (s.setSp v).pc = s.pc := rfl
@[simp] theorem setSp_sp (s : State) (v : Byte) : (s.setSp v).sp = v := rfl
@[simp] theorem setSp_a (s : State) (v : Byte) : (s.setSp v).a = s.a := rfl
@[simp] theorem setSp_x (s : State) (v : Byte) : (s.setSp v).x = s.x := rfl
@[simp] theorem setSp_y (s : State) (v : Byte) : (s.setSp v).y = s.y := rfl
@[simp] theorem setSp_p (s : State) (v : Byte) : (s.setSp v).p = s.p := rfl
@[simp] theorem setSp_rs (s : State) (v : Byte) : (s.setSp v).rs = s.rs := rfl
@[simp] theorem setSp_fr (s : State) (v : Byte) : (s.setSp v).fr = s.fr := rfl
@[simp] theorem setSp_mem (s : State) (v : Byte) : (s.setSp v).mem = s.mem := rfl
@[simp] theorem setSp_diagnostics (s : State) (v : Byte) : (s.setSp v).diagnostics = s.diagnostics := rfl
@[simp] theorem setSp_config (s : State) (v : Byte) : (s.setSp v).config = s.config := rfl

@[simp] theorem setA_pc (s : State) (v : Byte) : (s.setA v).pc = s.pc := rfl
@[simp] theorem setA_sp (s : State) (v : Byte) : (s.setA v).sp = s.sp := rfl
@[simp] theorem setA_a (s : State) (v : Byte) : (s.setA v).a = v := rfl
@[simp] theorem setA_x (s : State) (v : Byte) : (s.setA v).x = s.x := rfl
@[simp] theorem setA_y (s : State) (v : Byte) : (s.setA v).y = s.y := rfl
@[simp] theorem setA_p (s : State) (v : Byte) : (s.setA v).p = s.p := rfl
@[simp] theorem setA_rs (s : State) (v : Byte) : (s.setA v).rs = s.rs := rfl
@[simp] theorem setA_fr (s : State) (v : Byte) : (s.setA v).fr = s.fr := rfl
@[simp] theorem setA_mem (s : State) (v : Byte) : (s.setA v).mem = s.mem := rfl
@[simp] theorem setA_diagnostics (s : State) (v : Byte) : (s.setA v).diagnostics = s.diagnostics := rfl
@[simp] theorem setA_config (s : State) (v : Byte) : (s.setA v).config = s.config := rfl

@[simp] theorem setX_pc (s : State) (v : Byte) : (s.setX v).pc = s.pc := rfl
@[simp] theorem setX_sp (s : State) (v : Byte) : (s.setX v).sp = s.sp := rfl
@[simp] theorem setX_a (s : State) (v : Byte) : (s.setX v).a = s.a := rfl
@[simp] theorem setX_x (s : State) (v : Byte) : (s.setX v).x = v := rfl
@[simp] theorem setX_y (s : State) (v : Byte) : (s.setX v).y = s.y := rfl
@[simp] theorem setX_p (s : State) (v : Byte) : (s.setX v).p = s.p := rfl
@[simp] theorem setX_rs (s : State) (v : Byte) : (s.setX v).rs = s.rs := rfl
@[simp] theorem setX_fr (s : State) (v : Byte) : (s.setX v).fr = s.fr := rfl
@[simp] theorem setX_mem (s : State) (v : Byte) : (s.setX v).mem = s.mem := rfl
@[simp] theorem setX_diagnostics (s : State) (v : Byte) : (s.setX v).diagnostics = s.diagnostics := rfl
@[simp] theorem setX_config (s : State) (v : Byte) : (s.setX v).config = s.config := rfl

@[simp] theorem setY_pc (s : State) (v : Byte) : (s.setY v).pc = s.pc := rfl
@[simp] theorem setY_sp (s : State) (v : Byte) : (s.setY v).sp = s.sp := rfl
@[simp] theorem setY_a (s : State) (v : Byte) : (s.setY v).a = s.a := rfl
@[simp] theorem setY_x (s : State) (v : Byte) : (s.setY v).x = s.x := rfl
@[simp] theorem setY_y (s : State) (v : Byte) : (s.setY v).y = v := rfl
@[simp] theorem setY_p (s : State) (v : Byte) : (s.setY v).p = s.p := rfl
@[simp] theorem setY_rs (s : State) (v : Byte) : (s.setY v).rs = s.rs := rfl
@[simp] theorem setY_fr (s : State) (v : Byte) : (s.setY v).fr = s.fr := rfl
@[simp] theorem setY_mem (s : State) (v : Byte) : (s.setY v).mem = s.mem := rfl
@[simp] theorem setY_diagnostics (s : State) (v : Byte) : (s.setY v).diagnostics = s.diagnostics := rfl
@[simp] theorem setY_config (s : State) (v : Byte) : (s.setY v).config = s.config := rfl

@[simp] theorem setP_pc (s : State) (v : Byte) : (s.setP v).pc = s.pc := rfl
@[simp] theorem setP_sp (s : State) (v : Byte) : (s.setP v).sp = s.sp := rfl
@[simp] theorem setP_a (s : State) (v : Byte) : (s.setP v).a = s.a := rfl
@[simp] theorem setP_x (s : State) (v : Byte) : (s.setP v).x = s.x := rfl
@[simp] theorem setP_y (s : State) (v : Byte) : (s.setP v).y = s.y := rfl
@[simp] theorem setP_p (s : State) (v : Byte) : (s.setP v).p = v := rfl
@[simp] theorem setP_rs (s : State) (v : Byte) : (s.setP v).rs = s.rs := rfl
@[simp] theorem setP_fr (s : State) (v : Byte) : (s.setP v).fr = s.fr := rfl
@[simp] theorem setP_mem (s : State) (v : Byte) : (s.setP v).mem = s.mem := rfl
@[simp] theorem setP_diagnostics (s : State) (v : Byte) : (s.setP v).diagnostics = s.diagnostics := rfl
@[simp] theorem setP_config (s : State) (v : Byte) : (s.setP v).config = s.config := rfl

@[simp] theorem setMem_pc (s : State) (m : Memory) : (s.setMem m).pc = s.pc := rfl
@[simp] theorem setMem_sp (s : State) (m : Memory) : (s.setMem m).sp = s.sp := rfl
@[simp] theorem setMem_a (s : State) (m : Memory) : (s.setMem m).a = s.a := rfl
@[simp] theorem setMem_x (s : State) (m : Memory) : (s.setMem m).x = s.x := rfl
@[simp] theorem setMem_y (s : State) (m : Memory) : (s.setMem m).y = s.y := rfl
@[simp] theorem setMem_p (s : State) (m : Memory) : (s.setMem m).p = s.p := rfl
@[simp] theorem setMem_rs (s : State) (m : Memory) : (s.setMem m).rs = s.rs := rfl
@[simp] theorem setMem_fr (s : State) (m : Memory) : (s.setMem m).fr = s.fr := rfl
@[simp] theorem setMem_mem (s : State) (m : Memory) : (s.setMem m).mem = m := rfl
@[simp] theorem setMem_diagnostics (s : State) (m : Memory) : (s.setMem m).diagnostics = s.diagnostics := rfl
@[simp] theorem setMem_config (s : State) (m : Memory) : (s.setMem m).config = s.config := rfl

@[simp] theorem setRun_pc (s : State) (r : RunState) (f : FaultRecord) : (s.setRun r f).pc = s.pc := rfl
@[simp] theorem setRun_sp (s : State) (r : RunState) (f : FaultRecord) : (s.setRun r f).sp = s.sp := rfl
@[simp] theorem setRun_a (s : State) (r : RunState) (f : FaultRecord) : (s.setRun r f).a = s.a := rfl
@[simp] theorem setRun_x (s : State) (r : RunState) (f : FaultRecord) : (s.setRun r f).x = s.x := rfl
@[simp] theorem setRun_y (s : State) (r : RunState) (f : FaultRecord) : (s.setRun r f).y = s.y := rfl
@[simp] theorem setRun_p (s : State) (r : RunState) (f : FaultRecord) : (s.setRun r f).p = s.p := rfl
@[simp] theorem setRun_rs (s : State) (r : RunState) (f : FaultRecord) : (s.setRun r f).rs = r := rfl
@[simp] theorem setRun_fr (s : State) (r : RunState) (f : FaultRecord) : (s.setRun r f).fr = f := rfl
@[simp] theorem setRun_mem (s : State) (r : RunState) (f : FaultRecord) : (s.setRun r f).mem = s.mem := rfl
@[simp] theorem setRun_diagnostics (s : State) (r : RunState) (f : FaultRecord) : (s.setRun r f).diagnostics = s.diagnostics := rfl
@[simp] theorem setRun_config (s : State) (r : RunState) (f : FaultRecord) : (s.setRun r f).config = s.config := rfl

@[simp] theorem emit_pc (s : State) (d : Diagnostic) : (s.emit d).pc = s.pc := rfl
@[simp] theorem emit_sp (s : State) (d : Diagnostic) : (s.emit d).sp = s.sp := rfl
@[simp] theorem emit_a (s : State) (d : Diagnostic) : (s.emit d).a = s.a := rfl
@[simp] theorem emit_x (s : State) (d : Diagnostic) : (s.emit d).x = s.x := rfl
@[simp] theorem emit_y (s : State) (d : Diagnostic) : (s.emit d).y = s.y := rfl
@[simp] theorem emit_p (s : State) (d : Diagnostic) : (s.emit d).p = s.p := rfl
@[simp] theorem emit_rs (s : State) (d : Diagnostic) : (s.emit d).rs = s.rs := rfl
@[simp] theorem emit_fr (s : State) (d : Diagnostic) : (s.emit d).fr = s.fr := rfl
@[simp] theorem emit_mem (s : State) (d : Diagnostic) : (s.emit d).mem = s.mem := rfl
@[simp] theorem emit_diagnostics (s : State) (d : Diagnostic) : (s.emit d).diagnostics = s.diagnostics ++ [d] := rfl
@[simp] theorem emit_config (s : State) (d : Diagnostic) : (s.emit d).config = s.config := rfl

@[simp] theorem advance_pc (s : State) (n : Nat) : (s.advance n).pc = s.pc + BitVec.ofNat 16 n := rfl
@[simp] theorem advance_sp (s : State) (n : Nat) : (s.advance n).sp = s.sp := rfl
@[simp] theorem advance_a (s : State) (n : Nat) : (s.advance n).a = s.a := rfl
@[simp] theorem advance_x (s : State) (n : Nat) : (s.advance n).x = s.x := rfl
@[simp] theorem advance_y (s : State) (n : Nat) : (s.advance n).y = s.y := rfl
@[simp] theorem advance_p (s : State) (n : Nat) : (s.advance n).p = s.p := rfl
@[simp] theorem advance_rs (s : State) (n : Nat) : (s.advance n).rs = s.rs := rfl
@[simp] theorem advance_fr (s : State) (n : Nat) : (s.advance n).fr = s.fr := rfl
@[simp] theorem advance_mem (s : State) (n : Nat) : (s.advance n).mem = s.mem := rfl
@[simp] theorem advance_diagnostics (s : State) (n : Nat) : (s.advance n).diagnostics = s.diagnostics := rfl
@[simp] theorem advance_config (s : State) (n : Nat) : (s.advance n).config = s.config := rfl

@[simp] theorem write_pc (s : State) (addr : Word) (v : Byte) : (s.write addr v).pc = s.pc := rfl
@[simp] theorem write_sp (s : State) (addr : Word) (v : Byte) : (s.write addr v).sp = s.sp := rfl
@[simp] theorem write_a (s : State) (addr : Word) (v : Byte) : (s.write addr v).a = s.a := rfl
@[simp] theorem write_x (s : State) (addr : Word) (v : Byte) : (s.write addr v).x = s.x := rfl
@[simp] theorem write_y (s : State) (addr : Word) (v : Byte) : (s.write addr v).y = s.y := rfl
@[simp] theorem write_p (s : State) (addr : Word) (v : Byte) : (s.write addr v).p = s.p := rfl
@[simp] theorem write_rs (s : State) (addr : Word) (v : Byte) : (s.write addr v).rs = s.rs := rfl
@[simp] theorem write_fr (s : State) (addr : Word) (v : Byte) : (s.write addr v).fr = s.fr := rfl
@[simp] theorem write_mem (s : State) (addr : Word) (v : Byte) : (s.write addr v).mem = s.mem.write addr.toNat v := rfl
@[simp] theorem write_diagnostics (s : State) (addr : Word) (v : Byte) : (s.write addr v).diagnostics = s.diagnostics := rfl
@[simp] theorem write_config (s : State) (addr : Word) (v : Byte) : (s.write addr v).config = s.config := rfl

@[simp] theorem flagZN_pc (s : State) (v : Byte) : (s.flagZN v).pc = s.pc := rfl
@[simp] theorem flagZN_sp (s : State) (v : Byte) : (s.flagZN v).sp = s.sp := rfl
@[simp] theorem flagZN_a (s : State) (v : Byte) : (s.flagZN v).a = s.a := rfl
@[simp] theorem flagZN_x (s : State) (v : Byte) : (s.flagZN v).x = s.x := rfl
@[simp] theorem flagZN_y (s : State) (v : Byte) : (s.flagZN v).y = s.y := rfl
@[simp] theorem flagZN_p (s : State) (v : Byte) : (s.flagZN v).p = updateZN v s.p := rfl
@[simp] theorem flagZN_rs (s : State) (v : Byte) : (s.flagZN v).rs = s.rs := rfl
@[simp] theorem flagZN_fr (s : State) (v : Byte) : (s.flagZN v).fr = s.fr := rfl
@[simp] theorem flagZN_mem (s : State) (v : Byte) : (s.flagZN v).mem = s.mem := rfl
@[simp] theorem flagZN_diagnostics (s : State) (v : Byte) : (s.flagZN v).diagnostics = s.diagnostics := rfl
@[simp] theorem flagZN_config (s : State) (v : Byte) : (s.flagZN v).config = s.config := rfl

@[simp] theorem setAP_pc (s : State) (r : Byte × Byte) : (s.setAP r).pc = s.pc := rfl
@[simp] theorem setAP_sp (s : State) (r : Byte × Byte) : (s.setAP r).sp = s.sp := rfl
@[simp] theorem setAP_a (s : State) (r : Byte × Byte) : (s.setAP r).a = r.1 := rfl
@[simp] theorem setAP_x (s : State) (r : Byte × Byte) : (s.setAP r).x = s.x := rfl
@[simp] theorem setAP_y (s : State) (r : Byte × Byte) : (s.setAP r).y = s.y := rfl
@[simp] theorem setAP_p (s : State) (r : Byte × Byte) : (s.setAP r).p = r.2 := rfl
@[simp] theorem setAP_rs (s : State) (r : Byte × Byte) : (s.setAP r).rs = s.rs := rfl
@[simp] theorem setAP_fr (s : State) (r : Byte × Byte) : (s.setAP r).fr = s.fr := rfl
@[simp] theorem setAP_mem (s : State) (r : Byte × Byte) : (s.setAP r).mem = s.mem := rfl
@[simp] theorem setAP_diagnostics (s : State) (r : Byte × Byte) : (s.setAP r).diagnostics = s.diagnostics := rfl
@[simp] theorem setAP_config (s : State) (r : Byte × Byte) : (s.setAP r).config = s.config := rfl

@[simp] theorem push_pc (s : State) (v : Byte) : (s.push v).pc = s.pc := rfl
@[simp] theorem push_sp (s : State) (v : Byte) : (s.push v).sp = s.sp - 1#8 := rfl
@[simp] theorem push_a (s : State) (v : Byte) : (s.push v).a = s.a := rfl
@[simp] theorem push_x (s : State) (v : Byte) : (s.push v).x = s.x := rfl
@[simp] theorem push_y (s : State) (v : Byte) : (s.push v).y = s.y := rfl
@[simp] theorem push_p (s : State) (v : Byte) : (s.push v).p = s.p := rfl
@[simp] theorem push_rs (s : State) (v : Byte) : (s.push v).rs = s.rs := rfl
@[simp] theorem push_fr (s : State) (v : Byte) : (s.push v).fr = s.fr := rfl
@[simp] theorem push_mem (s : State) (v : Byte) : (s.push v).mem = s.mem.write (stackAddr s.sp).toNat v := rfl
@[simp] theorem push_diagnostics (s : State) (v : Byte) : (s.push v).diagnostics = s.diagnostics := rfl
@[simp] theorem push_config (s : State) (v : Byte) : (s.push v).config = s.config := rfl

@[simp] theorem halt_pc (s : State) (addr : Word) : (s.halt addr).pc = s.pc := rfl
@[simp] theorem halt_sp (s : State) (addr : Word) : (s.halt addr).sp = s.sp := rfl
@[simp] theorem halt_a (s : State) (addr : Word) : (s.halt addr).a = s.a := rfl
@[simp] theorem halt_x (s : State) (addr : Word) : (s.halt addr).x = s.x := rfl
@[simp] theorem halt_y (s : State) (addr : Word) : (s.halt addr).y = s.y := rfl
@[simp] theorem halt_p (s : State) (addr : Word) : (s.halt addr).p = s.p := rfl
@[simp] theorem halt_rs (s : State) (addr : Word) : (s.halt addr).rs = .halted := rfl
@[simp] theorem halt_fr (s : State) (addr : Word) : (s.halt addr).fr = .brk addr := rfl
@[simp] theorem halt_mem (s : State) (addr : Word) : (s.halt addr).mem = s.mem := rfl
@[simp] theorem halt_diagnostics (s : State) (addr : Word) : (s.halt addr).diagnostics = s.diagnostics := rfl
@[simp] theorem halt_config (s : State) (addr : Word) : (s.halt addr).config = s.config := rfl

@[simp] theorem pull_fst (s : State) : s.pull.1 = s.read (stackAddr (s.sp + 1#8)) := rfl
@[simp] theorem pull_snd (s : State) : s.pull.2 = s.setSp (s.sp + 1#8) := rfl

/-! Reading a byte sees the memory alone. -/

@[simp] theorem read_setPc (s : State) (v : Word) (k : Word) : (s.setPc v).read k = s.read k := rfl
@[simp] theorem read_setSp (s : State) (v : Byte) (k : Word) : (s.setSp v).read k = s.read k := rfl
@[simp] theorem read_setA (s : State) (v : Byte) (k : Word) : (s.setA v).read k = s.read k := rfl
@[simp] theorem read_setX (s : State) (v : Byte) (k : Word) : (s.setX v).read k = s.read k := rfl
@[simp] theorem read_setY (s : State) (v : Byte) (k : Word) : (s.setY v).read k = s.read k := rfl
@[simp] theorem read_setP (s : State) (v : Byte) (k : Word) : (s.setP v).read k = s.read k := rfl
@[simp] theorem read_setRun (s : State) (r : RunState) (f : FaultRecord) (k : Word) : (s.setRun r f).read k = s.read k := rfl
@[simp] theorem read_emit (s : State) (d : Diagnostic) (k : Word) : (s.emit d).read k = s.read k := rfl
@[simp] theorem read_advance (s : State) (n : Nat) (k : Word) : (s.advance n).read k = s.read k := rfl
@[simp] theorem read_flagZN (s : State) (v : Byte) (k : Word) : (s.flagZN v).read k = s.read k := rfl
@[simp] theorem read_setAP (s : State) (r : Byte × Byte) (k : Word) : (s.setAP r).read k = s.read k := rfl
@[simp] theorem read_halt (s : State) (addr : Word) (k : Word) : (s.halt addr).read k = s.read k := rfl

end Sys2Proof.Machine.State
end

