-- ==== Sys2Proof/Laws/Memory.lean ====
section
/-! SUPPORT. Memory: a read sees the last write to its byte and no other, and every operation keeps the canonical
form. -/

namespace Sys2Proof.Machine

namespace Memory

theorem read_erase_same (m : Memory) (addr : Nat) : (m.erase addr).read addr = unlisted := by
  induction m with
  | nil => rfl
  | cons c m ih =>
    by_cases h : c.1 = addr
    · simpa [erase, h] using ih
    · simpa [erase, h, read] using ih

theorem read_erase_of_ne (m : Memory) {addr k : Nat} (hk : k ≠ addr) : (m.erase addr).read k = m.read k := by
  induction m with
  | nil => rfl
  | cons c m ih =>
    by_cases h : c.1 = addr
    · have : c.1 ≠ k := fun e => hk (e.symm.trans h)
      simpa [erase, h, read, Ne.symm hk] using ih
    · have he : erase (c :: m) addr = c :: erase m addr := by simp [erase, h]
      rw [he]
      simp only [read, ih]

theorem mem_erase {m : Memory} {addr : Nat} {c : Host.Cell} : c ∈ m.erase addr ↔ c ∈ m ∧ c.1 ≠ addr := by
  simp [erase]

theorem mem_insert {m : Memory} {addr : Nat} {v : Byte} {c : Host.Cell} :
    c ∈ m.insert addr v ↔ c = (addr, v) ∨ c ∈ m := by
  induction m with
  | nil => simp [insert]
  | cons d m ih =>
    unfold insert
    split
    · simp
    · simp only [List.mem_cons, ih]
      exact or_left_comm

/-- Inserting at an address with no entry: the new byte is read there. -/
theorem read_insert_same {m : Memory} {addr : Nat} (v : Byte) (h : ∀ c ∈ m, c.1 ≠ addr) :
    (m.insert addr v).read addr = v := by
  induction m with
  | nil => simp [insert, read]
  | cons d m ih =>
    unfold insert
    split
    · simp [read]
    · have hd : d.1 ≠ addr := h d (by simp)
      simpa [read, hd] using ih fun c hc => h c (by simp [hc])

theorem read_insert_of_ne (m : Memory) {addr k : Nat} (v : Byte) (hk : k ≠ addr) :
    (m.insert addr v).read k = m.read k := by
  induction m with
  | nil => simp [insert, read, Ne.symm hk]
  | cons d m ih =>
    unfold insert
    split
    · simp [read, Ne.symm hk]
    · by_cases hd : d.1 = k
      · simp [read, hd]
      · simpa [read, hd] using ih

/-- Every memory, canonical or not: a byte written is read back. -/
theorem read_write_same (m : Memory) (addr : Nat) (v : Byte) : (m.write addr v).read addr = v := by
  unfold write
  split
  · next h => rw [read_erase_same, h]
  · exact read_insert_same v fun c hc => (mem_erase.mp hc).2

/-- Every memory, canonical or not: a write leaves every other byte alone. -/
theorem read_write_of_ne (m : Memory) {addr k : Nat} (v : Byte) (hk : k ≠ addr) :
    (m.write addr v).read k = m.read k := by
  unfold write
  split
  · exact read_erase_of_ne m hk
  · rw [read_insert_of_ne _ v hk, read_erase_of_ne m hk]

theorem wf_nil : wf [] := by simp [wf]

theorem wf_erase {m : Memory} (h : m.wf) (addr : Nat) : (m.erase addr).wf :=
  ⟨h.1.filter _, fun c hc => h.2 c (mem_erase.mp hc).1⟩

theorem wf_insert {m : Memory} {addr : Nat} {v : Byte} (h : m.wf) (ha : addr < 0x10000) (hv : v ≠ unlisted)
    (hn : ∀ c ∈ m, c.1 ≠ addr) : (m.insert addr v).wf := by
  refine ⟨?_, fun c hc => ?_⟩
  · obtain ⟨hs, -⟩ := h
    induction m with
    | nil => simp [insert]
    | cons d m ih =>
      have hd : d.1 ≠ addr := hn d (by simp)
      obtain ⟨hlt, hs'⟩ := List.pairwise_cons.mp hs
      unfold insert
      split
      · next had =>
        refine List.pairwise_cons.mpr ⟨fun c hc => ?_, hs⟩
        rcases List.mem_cons.mp hc with rfl | hc
        · exact had
        · exact Nat.lt_trans had (hlt c hc)
      · next hda =>
        refine List.pairwise_cons.mpr ⟨fun c hc => ?_, ih (fun c hc => hn c (by simp [hc])) hs'⟩
        rcases mem_insert.mp hc with rfl | hc
        · exact Nat.lt_of_le_of_ne (Nat.le_of_not_lt hda) hd
        · exact hlt c hc
  · rcases mem_insert.mp hc with rfl | hc
    · exact ⟨ha, hv⟩
    · exact h.2 c hc

/-- Writing a byte keeps the canonical form. -/
theorem wf_write {m : Memory} (h : m.wf) {addr : Nat} (ha : addr < 0x10000) (v : Byte) : (m.write addr v).wf := by
  unfold write
  split
  · exact wf_erase h addr
  · next hv => exact wf_insert (wf_erase h addr) ha hv fun c hc => (mem_erase.mp hc).2

end Memory

namespace State

@[simp] theorem read_write_same (s : State) (addr : Word) (v : Byte) : (s.write addr v).read addr = v :=
  s.mem.read_write_same _ v

theorem read_write_of_ne (s : State) {addr k : Word} (v : Byte) (h : k ≠ addr) :
    (s.write addr v).read k = s.read k :=
  s.mem.read_write_of_ne v fun e => h (BitVec.eq_of_toNat_eq e)

/-- A read after a write, at any address. -/
theorem read_write (s : State) (addr k : Word) (v : Byte) :
    (s.write addr v).read k = if k = addr then v else s.read k := by
  split
  · next h => rw [h, read_write_same]
  · next h => exact s.read_write_of_ne v h

theorem wf_write {s : State} (h : s.mem.wf) (addr : Word) (v : Byte) : (s.write addr v).mem.wf :=
  Memory.wf_write h addr.isLt v

theorem wf_push {s : State} (h : s.mem.wf) (v : Byte) : (s.push v).mem.wf := wf_write h _ v

theorem wf_push16 {s : State} (h : s.mem.wf) (w : Word) : (s.push16 w).mem.wf := wf_push (wf_push h _) _

theorem wf_write16 {s : State} (h : s.mem.wf) (addr w : Word) : (s.write16 addr w).mem.wf :=
  wf_write (wf_write h _ _) _ _

theorem reset_wf : State.reset.mem.wf := Memory.wf_nil

end State

end Sys2Proof.Machine
end

