-- ==== Sys2Proof/Laws/Ops.lean ====
section
/-! SUPPORT. For each shared operation, everything it does: the bytes it leaves, and the fields it writes. -/

namespace Sys2Proof.Machine

namespace State

/-- The two bytes a 16-bit push touches are different bytes. -/
theorem stackAddr_pred_ne (sp : Byte) : stackAddr (sp - 1#8) ≠ stackAddr sp := by
  intro h
  have := stackAddr_injective h
  bv_omega

theorem succ_ne (addr : Word) : addr + 1#16 ≠ addr := by bv_omega

/-- Storing a 16-bit value: the two bytes, the second address with 16-bit wrap, and no register. -/
theorem write16_spec (s : State) (addr v : Word) :
    s.write16 addr v = s.setMem (s.write16 addr v).mem ∧
    ∀ k, (s.write16 addr v).read k =
      if k = addr + 1#16 then hiByte v else if k = addr then loByte v else s.read k := by
  refine ⟨rfl, fun k => ?_⟩
  rw [write16, read_write, read_write]

/-- `Push`. -/
theorem push_spec (s : State) (v : Byte) :
    s.push v = (s.setMem (s.push v).mem).setSp (s.sp - 1#8) ∧
    ∀ k, (s.push v).read k = if k = stackAddr s.sp then v else s.read k :=
  ⟨rfl, fun k => s.read_write _ k v⟩

/-- `Push16`: high byte at the stack pointer, low byte below it. -/
theorem push16_spec (s : State) (w : Word) :
    s.push16 w = (s.setMem (s.push16 w).mem).setSp (s.sp - 2#8) ∧
    ∀ k, (s.push16 w).read k =
      if k = stackAddr (s.sp - 1#8) then loByte w else if k = stackAddr s.sp then hiByte w else s.read k := by
  have e : s.sp - 1#8 - 1#8 = s.sp - 2#8 := by bv_omega
  refine ⟨?_, fun k => ?_⟩
  · rw [← e]; rfl
  · rw [push16, (push_spec _ _).2, (push_spec _ _).2]; rfl

/-- `Pull16`: low byte first; no byte of memory changes. -/
theorem pull16_spec (s : State) :
    s.pull16 = (hiLo (s.read (stackAddr (s.sp + 2#8))) (s.read (stackAddr (s.sp + 1#8))), s.setSp (s.sp + 2#8)) := by
  have e : s.sp + 1#8 + 1#8 = s.sp + 2#8 := by bv_omega
  rw [← e]; rfl

/-- A read-modify-write of memory: one byte and P. -/
theorem modifyMem_spec (f : Byte → Byte → Byte × Byte) (ea : Word) (s : State) :
    s.modifyMem f ea = (s.setMem (s.modifyMem f ea).mem).setP (f (s.read ea) s.p).2 ∧
    ∀ k, (s.modifyMem f ea).read k = if k = ea then (f (s.read ea) s.p).1 else s.read k :=
  ⟨rfl, fun k => s.read_write ea k _⟩

/-- A modify of the accumulator: A and P. -/
theorem modifyA_spec (f : Byte → Byte → Byte × Byte) (s : State) :
    s.modifyA f = (s.setA (f s.a s.p).1).setP (f s.a s.p).2 := rfl

/-- Decimal arithmetic is on exactly when P.D is 1 and DECIMAL_MODE is Nmos. -/
theorem decimal_iff (s : State) : s.decimal = true ↔ Flag.decimalMode.get s.p = true ∧ s.config.decimal = .nmos := by
  simp [decimal]

/-- The unknown opcode, strict: RS and FR. -/
theorem unknownOpcode_strict {s : State} (h : s.config.unknownOpcode = .strict) (op : Byte) (addr : Word) :
    s.unknownOpcode op addr = s.setRun .faulted (.illegalOpcode op addr) := by
  simp only [unknownOpcode, h]

/-- The unknown opcode, permissive: one diagnostic. -/
theorem unknownOpcode_permissive {s : State} (h : s.config.unknownOpcode = .permissive) (op : Byte) (addr : Word) :
    s.unknownOpcode op addr = s.emit { op := op, addr := addr } := by
  simp only [unknownOpcode, h]

/-- Storing a list of bytes changes no register, and keeps the canonical form. -/
theorem writeBytes_spec (bytes : List Byte) (s : State) (addr : Word) :
    s.writeBytes addr bytes = s.setMem (s.writeBytes addr bytes).mem ∧
    (s.mem.wf → (s.writeBytes addr bytes).mem.wf) := by
  induction bytes generalizing s addr with
  | nil => exact ⟨rfl, id⟩
  | cons v vs ih =>
    obtain ⟨h1, h2⟩ := ih (s.write addr v) (addr + 1#16)
    exact ⟨h1, fun h => h2 (wf_write h addr v)⟩

/-- The bytes a list leaves, where it does not run over the top of memory. -/
theorem read_writeBytes (bytes : List Byte) (s : State) (addr k : Word) (h : addr.toNat + bytes.length ≤ 65536) :
    (s.writeBytes addr bytes).read k =
      if addr.toNat ≤ k.toNat ∧ k.toNat - addr.toNat < bytes.length
      then bytes.getD (k.toNat - addr.toNat) 0#8 else s.read k := by
  induction bytes generalizing s addr with
  | nil => simp [writeBytes]
  | cons v vs ih =>
    rw [List.length_cons] at h
    rw [writeBytes]
    by_cases hk : k = addr
    · subst hk
      rcases vs with _ | ⟨u, us⟩
      · simp [writeBytes]
      · have h1 : (k + 1#16).toNat = k.toNat + 1 := by
          rw [List.length_cons] at h
          simp [BitVec.toNat_add]; omega
        rw [ih _ _ (by omega), if_neg (by omega)]
        simp
    · have hn : k.toNat ≠ addr.toNat := fun e => hk (BitVec.eq_of_toNat_eq e)
      rcases vs with _ | ⟨u, us⟩
      · simp only [writeBytes, read_write, if_neg hk, List.length_cons, List.length_nil]
        rw [if_neg (by omega)]
      · have h1 : (addr + 1#16).toNat = addr.toNat + 1 := by
          rw [List.length_cons] at h
          simp [BitVec.toNat_add]; omega
        rw [ih _ _ (by omega), h1, read_write, if_neg hk]
        by_cases c : addr.toNat + 1 ≤ k.toNat ∧ k.toNat - (addr.toNat + 1) < (u :: us).length
        · have e : k.toNat - addr.toNat = k.toNat - (addr.toNat + 1) + 1 := by omega
          rw [if_pos c, if_pos (by rw [List.length_cons]; omega), e, List.getD_cons_succ]
        · rw [if_neg c, if_neg (by rw [List.length_cons]; omega)]

@[simp] theorem hostReset_mem (s : State) : s.hostReset.mem = s.mem := rfl
@[simp] theorem hostReset_rs (s : State) : s.hostReset.rs = .running := rfl
@[simp] theorem hostReset_fr (s : State) : s.hostReset.fr = .none := rfl
@[simp] theorem hostReset_config (s : State) : s.hostReset.config = s.config := rfl
@[simp] theorem hostReset_diagnostics (s : State) : s.hostReset.diagnostics = s.diagnostics := rfl

end State

/-- A read instruction's operand byte: the immediate byte, or the byte at the effective address. -/
theorem operandValue_spec {s : State} {o : Operand} {m : Byte} (h : operandValue s o = some m) :
    o = .immediate m ∨ ∃ ea, operandEa s o = some ea ∧ s.read ea = m := by
  cases o <;> simp [operandValue] at h
  · exact .inl (by rw [h])
  all_goals exact .inr ⟨_, rfl, h⟩

end Sys2Proof.Machine
end

