-- ==== Sys2Proof/Laws/PerInstr.lean ====
section
/-! SUPPORT. Per-instruction laws about the instruction as syntax. -/

namespace Sys2Proof.Laws.Encoded

/-- The instruction passes its well-formedness check, its encoding has its length, and the opcode table's entry at
its opcode carries its mode tag. -/
def Statement (i : Instr) : Prop :=
  i.wellFormed = true ∧ (encode i).length = i.length ∧ (opcodeTable i.opcode).mode = some i.mode

theorem ldaImm (b : Byte) : Statement (.ldaImm b) :=
  ⟨rfl, rfl, (rfl : (opcodeTable 0xA9#8).mode = some .immediate)⟩
theorem ldaZp (b : Byte) : Statement (.ldaZp b) :=
  ⟨rfl, rfl, (rfl : (opcodeTable 0xA5#8).mode = some .zeroPage)⟩
theorem ldaZpX (b : Byte) : Statement (.ldaZpX b) :=
  ⟨rfl, rfl, (rfl : (opcodeTable 0xB5#8).mode = some .zeroPageX)⟩
theorem ldaAbs (w : Word) : Statement (.ldaAbs w) :=
  ⟨rfl, rfl, (rfl : (opcodeTable 0xAD#8).mode = some .absolute)⟩
theorem ldaAbsX (w : Word) : Statement (.ldaAbsX w) :=
  ⟨rfl, rfl, (rfl : (opcodeTable 0xBD#8).mode = some .absoluteX)⟩
theorem ldaAbsY (w : Word) : Statement (.ldaAbsY w) :=
  ⟨rfl, rfl, (rfl : (opcodeTable 0xB9#8).mode = some .absoluteY)⟩
theorem ldaIndX (b : Byte) : Statement (.ldaIndX b) :=
  ⟨rfl, rfl, (rfl : (opcodeTable 0xA1#8).mode = some .indirectX)⟩
theorem ldaIndY (b : Byte) : Statement (.ldaIndY b) :=
  ⟨rfl, rfl, (rfl : (opcodeTable 0xB1#8).mode = some .indirectY)⟩
theorem ldxImm (b : Byte) : Statement (.ldxImm b) :=
  ⟨rfl, rfl, (rfl : (opcodeTable 0xA2#8).mode = some .immediate)⟩
theorem ldxZp (b : Byte) : Statement (.ldxZp b) :=
  ⟨rfl, rfl, (rfl : (opcodeTable 0xA6#8).mode = some .zeroPage)⟩
theorem ldxZpY (b : Byte) : Statement (.ldxZpY b) :=
  ⟨rfl, rfl, (rfl : (opcodeTable 0xB6#8).mode = some .zeroPageY)⟩
theorem ldxAbs (w : Word) : Statement (.ldxAbs w) :=
  ⟨rfl, rfl, (rfl : (opcodeTable 0xAE#8).mode = some .absolute)⟩
theorem ldxAbsY (w : Word) : Statement (.ldxAbsY w) :=
  ⟨rfl, rfl, (rfl : (opcodeTable 0xBE#8).mode = some .absoluteY)⟩
theorem ldyImm (b : Byte) : Statement (.ldyImm b) :=
  ⟨rfl, rfl, (rfl : (opcodeTable 0xA0#8).mode = some .immediate)⟩
theorem ldyZp (b : Byte) : Statement (.ldyZp b) :=
  ⟨rfl, rfl, (rfl : (opcodeTable 0xA4#8).mode = some .zeroPage)⟩
theorem ldyZpX (b : Byte) : Statement (.ldyZpX b) :=
  ⟨rfl, rfl, (rfl : (opcodeTable 0xB4#8).mode = some .zeroPageX)⟩
theorem ldyAbs (w : Word) : Statement (.ldyAbs w) :=
  ⟨rfl, rfl, (rfl : (opcodeTable 0xAC#8).mode = some .absolute)⟩
theorem ldyAbsX (w : Word) : Statement (.ldyAbsX w) :=
  ⟨rfl, rfl, (rfl : (opcodeTable 0xBC#8).mode = some .absoluteX)⟩
theorem staZp (b : Byte) : Statement (.staZp b) :=
  ⟨rfl, rfl, (rfl : (opcodeTable 0x85#8).mode = some .zeroPage)⟩
theorem staZpX (b : Byte) : Statement (.staZpX b) :=
  ⟨rfl, rfl, (rfl : (opcodeTable 0x95#8).mode = some .zeroPageX)⟩
theorem staAbs (w : Word) : Statement (.staAbs w) :=
  ⟨rfl, rfl, (rfl : (opcodeTable 0x8D#8).mode = some .absolute)⟩
theorem staAbsX (w : Word) : Statement (.staAbsX w) :=
  ⟨rfl, rfl, (rfl : (opcodeTable 0x9D#8).mode = some .absoluteX)⟩
theorem staAbsY (w : Word) : Statement (.staAbsY w) :=
  ⟨rfl, rfl, (rfl : (opcodeTable 0x99#8).mode = some .absoluteY)⟩
theorem staIndX (b : Byte) : Statement (.staIndX b) :=
  ⟨rfl, rfl, (rfl : (opcodeTable 0x81#8).mode = some .indirectX)⟩
theorem staIndY (b : Byte) : Statement (.staIndY b) :=
  ⟨rfl, rfl, (rfl : (opcodeTable 0x91#8).mode = some .indirectY)⟩
theorem stxZp (b : Byte) : Statement (.stxZp b) :=
  ⟨rfl, rfl, (rfl : (opcodeTable 0x86#8).mode = some .zeroPage)⟩
theorem stxZpY (b : Byte) : Statement (.stxZpY b) :=
  ⟨rfl, rfl, (rfl : (opcodeTable 0x96#8).mode = some .zeroPageY)⟩
theorem stxAbs (w : Word) : Statement (.stxAbs w) :=
  ⟨rfl, rfl, (rfl : (opcodeTable 0x8E#8).mode = some .absolute)⟩
theorem styZp (b : Byte) : Statement (.styZp b) :=
  ⟨rfl, rfl, (rfl : (opcodeTable 0x84#8).mode = some .zeroPage)⟩
theorem styZpX (b : Byte) : Statement (.styZpX b) :=
  ⟨rfl, rfl, (rfl : (opcodeTable 0x94#8).mode = some .zeroPageX)⟩
theorem styAbs (w : Word) : Statement (.styAbs w) :=
  ⟨rfl, rfl, (rfl : (opcodeTable 0x8C#8).mode = some .absolute)⟩
theorem tax : Statement .tax :=
  ⟨rfl, rfl, (rfl : (opcodeTable 0xAA#8).mode = some .implied)⟩
theorem tay : Statement .tay :=
  ⟨rfl, rfl, (rfl : (opcodeTable 0xA8#8).mode = some .implied)⟩
theorem txa : Statement .txa :=
  ⟨rfl, rfl, (rfl : (opcodeTable 0x8A#8).mode = some .implied)⟩
theorem tya : Statement .tya :=
  ⟨rfl, rfl, (rfl : (opcodeTable 0x98#8).mode = some .implied)⟩
theorem tsx : Statement .tsx :=
  ⟨rfl, rfl, (rfl : (opcodeTable 0xBA#8).mode = some .implied)⟩
theorem txs : Statement .txs :=
  ⟨rfl, rfl, (rfl : (opcodeTable 0x9A#8).mode = some .implied)⟩
theorem adcImm (b : Byte) : Statement (.adcImm b) :=
  ⟨rfl, rfl, (rfl : (opcodeTable 0x69#8).mode = some .immediate)⟩
theorem adcZp (b : Byte) : Statement (.adcZp b) :=
  ⟨rfl, rfl, (rfl : (opcodeTable 0x65#8).mode = some .zeroPage)⟩
theorem adcZpX (b : Byte) : Statement (.adcZpX b) :=
  ⟨rfl, rfl, (rfl : (opcodeTable 0x75#8).mode = some .zeroPageX)⟩
theorem adcAbs (w : Word) : Statement (.adcAbs w) :=
  ⟨rfl, rfl, (rfl : (opcodeTable 0x6D#8).mode = some .absolute)⟩
theorem adcAbsX (w : Word) : Statement (.adcAbsX w) :=
  ⟨rfl, rfl, (rfl : (opcodeTable 0x7D#8).mode = some .absoluteX)⟩
theorem adcAbsY (w : Word) : Statement (.adcAbsY w) :=
  ⟨rfl, rfl, (rfl : (opcodeTable 0x79#8).mode = some .absoluteY)⟩
theorem adcIndX (b : Byte) : Statement (.adcIndX b) :=
  ⟨rfl, rfl, (rfl : (opcodeTable 0x61#8).mode = some .indirectX)⟩
theorem adcIndY (b : Byte) : Statement (.adcIndY b) :=
  ⟨rfl, rfl, (rfl : (opcodeTable 0x71#8).mode = some .indirectY)⟩
theorem sbcImm (b : Byte) : Statement (.sbcImm b) :=
  ⟨rfl, rfl, (rfl : (opcodeTable 0xE9#8).mode = some .immediate)⟩
theorem sbcZp (b : Byte) : Statement (.sbcZp b) :=
  ⟨rfl, rfl, (rfl : (opcodeTable 0xE5#8).mode = some .zeroPage)⟩
theorem sbcZpX (b : Byte) : Statement (.sbcZpX b) :=
  ⟨rfl, rfl, (rfl : (opcodeTable 0xF5#8).mode = some .zeroPageX)⟩
theorem sbcAbs (w : Word) : Statement (.sbcAbs w) :=
  ⟨rfl, rfl, (rfl : (opcodeTable 0xED#8).mode = some .absolute)⟩
theorem sbcAbsX (w : Word) : Statement (.sbcAbsX w) :=
  ⟨rfl, rfl, (rfl : (opcodeTable 0xFD#8).mode = some .absoluteX)⟩
theorem sbcAbsY (w : Word) : Statement (.sbcAbsY w) :=
  ⟨rfl, rfl, (rfl : (opcodeTable 0xF9#8).mode = some .absoluteY)⟩
theorem sbcIndX (b : Byte) : Statement (.sbcIndX b) :=
  ⟨rfl, rfl, (rfl : (opcodeTable 0xE1#8).mode = some .indirectX)⟩
theorem sbcIndY (b : Byte) : Statement (.sbcIndY b) :=
  ⟨rfl, rfl, (rfl : (opcodeTable 0xF1#8).mode = some .indirectY)⟩
theorem incZp (b : Byte) : Statement (.incZp b) :=
  ⟨rfl, rfl, (rfl : (opcodeTable 0xE6#8).mode = some .zeroPage)⟩
theorem incZpX (b : Byte) : Statement (.incZpX b) :=
  ⟨rfl, rfl, (rfl : (opcodeTable 0xF6#8).mode = some .zeroPageX)⟩
theorem incAbs (w : Word) : Statement (.incAbs w) :=
  ⟨rfl, rfl, (rfl : (opcodeTable 0xEE#8).mode = some .absolute)⟩
theorem incAbsX (w : Word) : Statement (.incAbsX w) :=
  ⟨rfl, rfl, (rfl : (opcodeTable 0xFE#8).mode = some .absoluteX)⟩
theorem decZp (b : Byte) : Statement (.decZp b) :=
  ⟨rfl, rfl, (rfl : (opcodeTable 0xC6#8).mode = some .zeroPage)⟩
theorem decZpX (b : Byte) : Statement (.decZpX b) :=
  ⟨rfl, rfl, (rfl : (opcodeTable 0xD6#8).mode = some .zeroPageX)⟩
theorem decAbs (w : Word) : Statement (.decAbs w) :=
  ⟨rfl, rfl, (rfl : (opcodeTable 0xCE#8).mode = some .absolute)⟩
theorem decAbsX (w : Word) : Statement (.decAbsX w) :=
  ⟨rfl, rfl, (rfl : (opcodeTable 0xDE#8).mode = some .absoluteX)⟩
theorem inx : Statement .inx :=
  ⟨rfl, rfl, (rfl : (opcodeTable 0xE8#8).mode = some .implied)⟩
theorem iny : Statement .iny :=
  ⟨rfl, rfl, (rfl : (opcodeTable 0xC8#8).mode = some .implied)⟩
theorem dex : Statement .dex :=
  ⟨rfl, rfl, (rfl : (opcodeTable 0xCA#8).mode = some .implied)⟩
theorem dey : Statement .dey :=
  ⟨rfl, rfl, (rfl : (opcodeTable 0x88#8).mode = some .implied)⟩
theorem aslZp (b : Byte) : Statement (.aslZp b) :=
  ⟨rfl, rfl, (rfl : (opcodeTable 0x06#8).mode = some .zeroPage)⟩
theorem aslZpX (b : Byte) : Statement (.aslZpX b) :=
  ⟨rfl, rfl, (rfl : (opcodeTable 0x16#8).mode = some .zeroPageX)⟩
theorem aslAbs (w : Word) : Statement (.aslAbs w) :=
  ⟨rfl, rfl, (rfl : (opcodeTable 0x0E#8).mode = some .absolute)⟩
theorem aslAbsX (w : Word) : Statement (.aslAbsX w) :=
  ⟨rfl, rfl, (rfl : (opcodeTable 0x1E#8).mode = some .absoluteX)⟩
theorem aslAcc : Statement .aslAcc :=
  ⟨rfl, rfl, (rfl : (opcodeTable 0x0A#8).mode = some .implied)⟩
theorem lsrZp (b : Byte) : Statement (.lsrZp b) :=
  ⟨rfl, rfl, (rfl : (opcodeTable 0x46#8).mode = some .zeroPage)⟩
theorem lsrZpX (b : Byte) : Statement (.lsrZpX b) :=
  ⟨rfl, rfl, (rfl : (opcodeTable 0x56#8).mode = some .zeroPageX)⟩
theorem lsrAbs (w : Word) : Statement (.lsrAbs w) :=
  ⟨rfl, rfl, (rfl : (opcodeTable 0x4E#8).mode = some .absolute)⟩
theorem lsrAbsX (w : Word) : Statement (.lsrAbsX w) :=
  ⟨rfl, rfl, (rfl : (opcodeTable 0x5E#8).mode = some .absoluteX)⟩
theorem lsrAcc : Statement .lsrAcc :=
  ⟨rfl, rfl, (rfl : (opcodeTable 0x4A#8).mode = some .implied)⟩
theorem rolZp (b : Byte) : Statement (.rolZp b) :=
  ⟨rfl, rfl, (rfl : (opcodeTable 0x26#8).mode = some .zeroPage)⟩
theorem rolZpX (b : Byte) : Statement (.rolZpX b) :=
  ⟨rfl, rfl, (rfl : (opcodeTable 0x36#8).mode = some .zeroPageX)⟩
theorem rolAbs (w : Word) : Statement (.rolAbs w) :=
  ⟨rfl, rfl, (rfl : (opcodeTable 0x2E#8).mode = some .absolute)⟩
theorem rolAbsX (w : Word) : Statement (.rolAbsX w) :=
  ⟨rfl, rfl, (rfl : (opcodeTable 0x3E#8).mode = some .absoluteX)⟩
theorem rolAcc : Statement .rolAcc :=
  ⟨rfl, rfl, (rfl : (opcodeTable 0x2A#8).mode = some .implied)⟩
theorem rorZp (b : Byte) : Statement (.rorZp b) :=
  ⟨rfl, rfl, (rfl : (opcodeTable 0x66#8).mode = some .zeroPage)⟩
theorem rorZpX (b : Byte) : Statement (.rorZpX b) :=
  ⟨rfl, rfl, (rfl : (opcodeTable 0x76#8).mode = some .zeroPageX)⟩
theorem rorAbs (w : Word) : Statement (.rorAbs w) :=
  ⟨rfl, rfl, (rfl : (opcodeTable 0x6E#8).mode = some .absolute)⟩
theorem rorAbsX (w : Word) : Statement (.rorAbsX w) :=
  ⟨rfl, rfl, (rfl : (opcodeTable 0x7E#8).mode = some .absoluteX)⟩
theorem rorAcc : Statement .rorAcc :=
  ⟨rfl, rfl, (rfl : (opcodeTable 0x6A#8).mode = some .implied)⟩
theorem andImm (b : Byte) : Statement (.andImm b) :=
  ⟨rfl, rfl, (rfl : (opcodeTable 0x29#8).mode = some .immediate)⟩
theorem andZp (b : Byte) : Statement (.andZp b) :=
  ⟨rfl, rfl, (rfl : (opcodeTable 0x25#8).mode = some .zeroPage)⟩
theorem andZpX (b : Byte) : Statement (.andZpX b) :=
  ⟨rfl, rfl, (rfl : (opcodeTable 0x35#8).mode = some .zeroPageX)⟩
theorem andAbs (w : Word) : Statement (.andAbs w) :=
  ⟨rfl, rfl, (rfl : (opcodeTable 0x2D#8).mode = some .absolute)⟩
theorem andAbsX (w : Word) : Statement (.andAbsX w) :=
  ⟨rfl, rfl, (rfl : (opcodeTable 0x3D#8).mode = some .absoluteX)⟩
theorem andAbsY (w : Word) : Statement (.andAbsY w) :=
  ⟨rfl, rfl, (rfl : (opcodeTable 0x39#8).mode = some .absoluteY)⟩
theorem andIndX (b : Byte) : Statement (.andIndX b) :=
  ⟨rfl, rfl, (rfl : (opcodeTable 0x21#8).mode = some .indirectX)⟩
theorem andIndY (b : Byte) : Statement (.andIndY b) :=
  ⟨rfl, rfl, (rfl : (opcodeTable 0x31#8).mode = some .indirectY)⟩
theorem oraImm (b : Byte) : Statement (.oraImm b) :=
  ⟨rfl, rfl, (rfl : (opcodeTable 0x09#8).mode = some .immediate)⟩
theorem oraZp (b : Byte) : Statement (.oraZp b) :=
  ⟨rfl, rfl, (rfl : (opcodeTable 0x05#8).mode = some .zeroPage)⟩
theorem oraZpX (b : Byte) : Statement (.oraZpX b) :=
  ⟨rfl, rfl, (rfl : (opcodeTable 0x15#8).mode = some .zeroPageX)⟩
theorem oraAbs (w : Word) : Statement (.oraAbs w) :=
  ⟨rfl, rfl, (rfl : (opcodeTable 0x0D#8).mode = some .absolute)⟩
theorem oraAbsX (w : Word) : Statement (.oraAbsX w) :=
  ⟨rfl, rfl, (rfl : (opcodeTable 0x1D#8).mode = some .absoluteX)⟩
theorem oraAbsY (w : Word) : Statement (.oraAbsY w) :=
  ⟨rfl, rfl, (rfl : (opcodeTable 0x19#8).mode = some .absoluteY)⟩
theorem oraIndX (b : Byte) : Statement (.oraIndX b) :=
  ⟨rfl, rfl, (rfl : (opcodeTable 0x01#8).mode = some .indirectX)⟩
theorem oraIndY (b : Byte) : Statement (.oraIndY b) :=
  ⟨rfl, rfl, (rfl : (opcodeTable 0x11#8).mode = some .indirectY)⟩
theorem eorImm (b : Byte) : Statement (.eorImm b) :=
  ⟨rfl, rfl, (rfl : (opcodeTable 0x49#8).mode = some .immediate)⟩
theorem eorZp (b : Byte) : Statement (.eorZp b) :=
  ⟨rfl, rfl, (rfl : (opcodeTable 0x45#8).mode = some .zeroPage)⟩
theorem eorZpX (b : Byte) : Statement (.eorZpX b) :=
  ⟨rfl, rfl, (rfl : (opcodeTable 0x55#8).mode = some .zeroPageX)⟩
theorem eorAbs (w : Word) : Statement (.eorAbs w) :=
  ⟨rfl, rfl, (rfl : (opcodeTable 0x4D#8).mode = some .absolute)⟩
theorem eorAbsX (w : Word) : Statement (.eorAbsX w) :=
  ⟨rfl, rfl, (rfl : (opcodeTable 0x5D#8).mode = some .absoluteX)⟩
theorem eorAbsY (w : Word) : Statement (.eorAbsY w) :=
  ⟨rfl, rfl, (rfl : (opcodeTable 0x59#8).mode = some .absoluteY)⟩
theorem eorIndX (b : Byte) : Statement (.eorIndX b) :=
  ⟨rfl, rfl, (rfl : (opcodeTable 0x41#8).mode = some .indirectX)⟩
theorem eorIndY (b : Byte) : Statement (.eorIndY b) :=
  ⟨rfl, rfl, (rfl : (opcodeTable 0x51#8).mode = some .indirectY)⟩
theorem bitZp (b : Byte) : Statement (.bitZp b) :=
  ⟨rfl, rfl, (rfl : (opcodeTable 0x24#8).mode = some .zeroPage)⟩
theorem bitAbs (w : Word) : Statement (.bitAbs w) :=
  ⟨rfl, rfl, (rfl : (opcodeTable 0x2C#8).mode = some .absolute)⟩
theorem cmpImm (b : Byte) : Statement (.cmpImm b) :=
  ⟨rfl, rfl, (rfl : (opcodeTable 0xC9#8).mode = some .immediate)⟩
theorem cmpZp (b : Byte) : Statement (.cmpZp b) :=
  ⟨rfl, rfl, (rfl : (opcodeTable 0xC5#8).mode = some .zeroPage)⟩
theorem cmpZpX (b : Byte) : Statement (.cmpZpX b) :=
  ⟨rfl, rfl, (rfl : (opcodeTable 0xD5#8).mode = some .zeroPageX)⟩
theorem cmpAbs (w : Word) : Statement (.cmpAbs w) :=
  ⟨rfl, rfl, (rfl : (opcodeTable 0xCD#8).mode = some .absolute)⟩
theorem cmpAbsX (w : Word) : Statement (.cmpAbsX w) :=
  ⟨rfl, rfl, (rfl : (opcodeTable 0xDD#8).mode = some .absoluteX)⟩
theorem cmpAbsY (w : Word) : Statement (.cmpAbsY w) :=
  ⟨rfl, rfl, (rfl : (opcodeTable 0xD9#8).mode = some .absoluteY)⟩
theorem cmpIndX (b : Byte) : Statement (.cmpIndX b) :=
  ⟨rfl, rfl, (rfl : (opcodeTable 0xC1#8).mode = some .indirectX)⟩
theorem cmpIndY (b : Byte) : Statement (.cmpIndY b) :=
  ⟨rfl, rfl, (rfl : (opcodeTable 0xD1#8).mode = some .indirectY)⟩
theorem cpxImm (b : Byte) : Statement (.cpxImm b) :=
  ⟨rfl, rfl, (rfl : (opcodeTable 0xE0#8).mode = some .immediate)⟩
theorem cpxZp (b : Byte) : Statement (.cpxZp b) :=
  ⟨rfl, rfl, (rfl : (opcodeTable 0xE4#8).mode = some .zeroPage)⟩
theorem cpxAbs (w : Word) : Statement (.cpxAbs w) :=
  ⟨rfl, rfl, (rfl : (opcodeTable 0xEC#8).mode = some .absolute)⟩
theorem cpyImm (b : Byte) : Statement (.cpyImm b) :=
  ⟨rfl, rfl, (rfl : (opcodeTable 0xC0#8).mode = some .immediate)⟩
theorem cpyZp (b : Byte) : Statement (.cpyZp b) :=
  ⟨rfl, rfl, (rfl : (opcodeTable 0xC4#8).mode = some .zeroPage)⟩
theorem cpyAbs (w : Word) : Statement (.cpyAbs w) :=
  ⟨rfl, rfl, (rfl : (opcodeTable 0xCC#8).mode = some .absolute)⟩
theorem bpl (b : Byte) : Statement (.bpl b) :=
  ⟨rfl, rfl, (rfl : (opcodeTable 0x10#8).mode = some .relative)⟩
theorem bmi (b : Byte) : Statement (.bmi b) :=
  ⟨rfl, rfl, (rfl : (opcodeTable 0x30#8).mode = some .relative)⟩
theorem bvc (b : Byte) : Statement (.bvc b) :=
  ⟨rfl, rfl, (rfl : (opcodeTable 0x50#8).mode = some .relative)⟩
theorem bvs (b : Byte) : Statement (.bvs b) :=
  ⟨rfl, rfl, (rfl : (opcodeTable 0x70#8).mode = some .relative)⟩
theorem bcc (b : Byte) : Statement (.bcc b) :=
  ⟨rfl, rfl, (rfl : (opcodeTable 0x90#8).mode = some .relative)⟩
theorem bcs (b : Byte) : Statement (.bcs b) :=
  ⟨rfl, rfl, (rfl : (opcodeTable 0xB0#8).mode = some .relative)⟩
theorem bne (b : Byte) : Statement (.bne b) :=
  ⟨rfl, rfl, (rfl : (opcodeTable 0xD0#8).mode = some .relative)⟩
theorem beq (b : Byte) : Statement (.beq b) :=
  ⟨rfl, rfl, (rfl : (opcodeTable 0xF0#8).mode = some .relative)⟩
theorem jmpAbs (w : Word) : Statement (.jmpAbs w) :=
  ⟨rfl, rfl, (rfl : (opcodeTable 0x4C#8).mode = some .absolute)⟩
theorem jmpInd (w : Word) : Statement (.jmpInd w) :=
  ⟨rfl, rfl, (rfl : (opcodeTable 0x6C#8).mode = some .indirect)⟩
theorem jsr (w : Word) : Statement (.jsr w) :=
  ⟨rfl, rfl, (rfl : (opcodeTable 0x20#8).mode = some .absolute)⟩
theorem rts : Statement .rts :=
  ⟨rfl, rfl, (rfl : (opcodeTable 0x60#8).mode = some .implied)⟩
theorem rti : Statement .rti :=
  ⟨rfl, rfl, (rfl : (opcodeTable 0x40#8).mode = some .implied)⟩
theorem brk : Statement .brk :=
  ⟨rfl, rfl, (rfl : (opcodeTable 0x00#8).mode = some .noneAddressing)⟩
theorem pha : Statement .pha :=
  ⟨rfl, rfl, (rfl : (opcodeTable 0x48#8).mode = some .implied)⟩
theorem php : Statement .php :=
  ⟨rfl, rfl, (rfl : (opcodeTable 0x08#8).mode = some .implied)⟩
theorem pla : Statement .pla :=
  ⟨rfl, rfl, (rfl : (opcodeTable 0x68#8).mode = some .implied)⟩
theorem plp : Statement .plp :=
  ⟨rfl, rfl, (rfl : (opcodeTable 0x28#8).mode = some .implied)⟩
theorem clc : Statement .clc :=
  ⟨rfl, rfl, (rfl : (opcodeTable 0x18#8).mode = some .implied)⟩
theorem sec : Statement .sec :=
  ⟨rfl, rfl, (rfl : (opcodeTable 0x38#8).mode = some .implied)⟩
theorem cli : Statement .cli :=
  ⟨rfl, rfl, (rfl : (opcodeTable 0x58#8).mode = some .implied)⟩
theorem sei : Statement .sei :=
  ⟨rfl, rfl, (rfl : (opcodeTable 0x78#8).mode = some .implied)⟩
theorem clv : Statement .clv :=
  ⟨rfl, rfl, (rfl : (opcodeTable 0xB8#8).mode = some .implied)⟩
theorem cld : Statement .cld :=
  ⟨rfl, rfl, (rfl : (opcodeTable 0xD8#8).mode = some .implied)⟩
theorem sed : Statement .sed :=
  ⟨rfl, rfl, (rfl : (opcodeTable 0xF8#8).mode = some .implied)⟩
theorem nop : Statement .nop :=
  ⟨rfl, rfl, (rfl : (opcodeTable 0xEA#8).mode = some .implied)⟩

end Sys2Proof.Laws.Encoded
end

