-- ==== Sys2Proof/Laws/Step.lean ====
section
/-! SUPPORT. What a step can be, said once. -/

namespace Sys2Proof.Machine

/-- Outside Running a step changes nothing. -/
theorem step_stopped {s : State} (h : s.rs ≠ .running) : step s = .next s := by
  cases hr : s.rs <;> simp_all [step]

/-- A Running step whose fetch finds an instruction is that instruction's meaning. -/
theorem step_fetched {s : State} {i : Instr} (hr : s.rs = .running) (hf : s.fetch = .ok i) : step s = exec i s := by
  simp only [step, hr, hf]

/-- A Running step on an Unknown opcode byte is the unknown-opcode policy after the fetch of one byte. -/
theorem step_unknown {s : State} {op : Byte} (hr : s.rs = .running) (hf : s.fetch = .error op) :
    step s = .next ((s.advance 1).unknownOpcode op s.pc) := by
  simp only [step, hr, hf]

/-- The three ways a step can go. -/
theorem step_cases (s : State) :
    (s.rs ≠ .running ∧ step s = .next s) ∨
    (∃ i, s.rs = .running ∧ s.fetch = .ok i ∧ step s = exec i s) ∨
    (∃ op, s.rs = .running ∧ s.fetch = .error op ∧ step s = .next ((s.advance 1).unknownOpcode op s.pc)) := by
  by_cases hr : s.rs = .running
  · cases hf : s.fetch with
    | ok i => exact .inr (.inl ⟨i, hr, rfl, step_fetched hr hf⟩)
    | error op => exact .inr (.inr ⟨op, hr, rfl, step_unknown hr hf⟩)
  · exact .inl ⟨hr, step_stopped hr⟩

/-- The byte a failed fetch names is the one at PC, and its table entry is Unknown. -/
theorem fetch_error {s : State} {op : Byte} (h : s.fetch = .error op) :
    op = s.read s.pc ∧ (opcodeTable op).mode = none := by
  unfold State.fetch at h
  cases hE : opcodeTable (s.read s.pc) <;> simp only [hE, Entry.instr] at h <;> cases h
  exact ⟨rfl, by rw [hE]; rfl⟩

/-- A taken step of a run goes on with the rest of the readings. -/
theorem run_cons_running {s t : State} {later : List Bool} (h : step s = .next t) (ht : t.isRunning = true) :
    run (false :: later) s = run later t := by
  simp [run, h, ht]

end Sys2Proof.Machine
end

