-- ==== Sys2Proof/Machine/Cycles.lean ====
section
/-! DEFINITION. The informative cycle counts (70_reset_and_hazards.md R821) as a function beside the step, which
does not read it (R820; log entry 10). -/

namespace Sys2Proof.Machine

/-- Two addresses lie on different pages (40_execution_and_addressing.md R424). -/
def pageCrossed (base ea : Word) : Bool := hiByte base != hiByte ea

/-- One more cycle when an indexed access leaves its base address's page (R424, R821). -/
def crossingCycle (o : Operand) (s : State) : Nat :=
  match o with
  | .absoluteX w => (pageCrossed w (eaAbsoluteX w s)).toNat
  | .absoluteY w => (pageCrossed w (eaAbsoluteY w s)).toNat
  | .indirectY b => (pageCrossed (s.readZp16 b) (eaIndirectY b s)).toNat
  | .immediate _ | .zeroPage _ | .zeroPageX _ | .zeroPageY _ | .absolute _ | .relative _ | .indirect _
  | .indirectX _ | .implied | .noneAddressing => 0

/-- The cycles of an instruction that reads its operand, by mode. -/
def readCycles (o : Operand) (s : State) : Option Nat :=
  match o with
  | .immediate _ => some 2
  | .zeroPage _ => some 3
  | .zeroPageX _ | .zeroPageY _ | .absolute _ => some 4
  | .absoluteX _ | .absoluteY _ => some (4 + crossingCycle o s)
  | .indirectX _ => some 6
  | .indirectY _ => some (5 + crossingCycle o s)
  | .relative _ | .indirect _ | .implied | .noneAddressing => none

/-- The cycles of a store, by mode. -/
def storeCycles : Operand → Option Nat
  | .zeroPage _ => some 3
  | .zeroPageX _ | .zeroPageY _ | .absolute _ => some 4
  | .absoluteX _ | .absoluteY _ => some 5
  | .indirectX _ | .indirectY _ => some 6
  | .immediate _ | .relative _ | .indirect _ | .implied | .noneAddressing => none

/-- The cycles of a read-modify-write instruction, by mode, the accumulator form included. -/
def modifyCycles : Operand → Option Nat
  | .implied => some 2
  | .zeroPage _ => some 5
  | .zeroPageX _ | .absolute _ => some 6
  | .absoluteX _ => some 7
  | .immediate _ | .zeroPageY _ | .absoluteY _ | .relative _ | .indirect _ | .indirectX _ | .indirectY _
  | .noneAddressing => none

/-- The cycles of a branch: 2, one more if taken, one more again if taken to another page. -/
def branchCycles (taken : Bool) (o : Operand) (s : State) : Option Nat :=
  match operandEa s o with
  | some ea => some (if taken then 3 + (pageCrossed (s.pc + 2#16) ea).toNat else 2)
  | none => none

/-- The informative cycle count of an instruction at the state's PC; the halting BRK has none (R821). -/
def cycles (i : Instr) (s : State) : Option Nat :=
  match i.op with
  | .lda | .ldx | .ldy | .adc | .sbc | .and | .ora | .eor | .bit | .cmp | .cpx | .cpy => readCycles i.operand s
  | .sta | .stx | .sty => storeCycles i.operand
  | .inc | .dec | .asl | .lsr | .rol | .ror => modifyCycles i.operand
  | .bpl => branchCycles (!Flag.negative.get s.p) i.operand s
  | .bmi => branchCycles (Flag.negative.get s.p) i.operand s
  | .bvc => branchCycles (!Flag.overflow.get s.p) i.operand s
  | .bvs => branchCycles (Flag.overflow.get s.p) i.operand s
  | .bcc => branchCycles (!Flag.carry.get s.p) i.operand s
  | .bcs => branchCycles (Flag.carry.get s.p) i.operand s
  | .bne => branchCycles (!Flag.zero.get s.p) i.operand s
  | .beq => branchCycles (Flag.zero.get s.p) i.operand s
  | .jmp => if i.mode = .indirect then some 5 else some 3
  | .jsr | .rts | .rti => some 6
  | .pha | .php => some 3
  | .pla | .plp => some 4
  | .tax | .tay | .txa | .tya | .tsx | .txs | .inx | .iny | .dex | .dey => some 2
  | .clc | .sec | .cli | .sei | .clv | .cld | .sed | .nop => some 2
  | .brk => none

end Sys2Proof.Machine
end

