-- ==== Sys2Proof/Tests/Slice0.lean ====
section
/-! SUPPORT. The model's own tests. Expected results come from spec/: the encodings from opcode_table.json and
30_encoding.md R306, the steps from the vectors V<n> of 95_test_vectors.md. The theorems test_witness_<Name> show
that the hypotheses of the obligation <Name> can be met. -/

namespace Sys2Proof.Tests

open Sys2Proof Sys2Proof.Machine

/-! The checks of WellFormed refuse ill-formed terms. -/

theorem test_wellFormed_refuses_sta_immediate : pairWellFormed .sta .immediate = false := by decide
theorem test_wellFormed_refuses_stx_zeroPageX : pairWellFormed .stx .zeroPageX = false := by decide
theorem test_wellFormed_refuses_mask_zero : maskWellFormed 0x00#8 = false := by decide
theorem test_wellFormed_refuses_a_program_too_long :
    programWellFormed (List.replicate 0x8001 0xEA#8) = false := by
  rw [programWellFormed, List.length_replicate]; decide

/-! Decoding: every row of the opcode table, its bytes written out. Operand bytes are 0x34, or 0x34 0x12 for the
word 0x1234, so that exchanged bytes would show. -/

/-- Whether a list of bytes, followed by another byte, decodes to an instruction and leaves that byte. -/
def decodesTo (q : List Byte × Instr) : Bool := 
  match decode (q.1 ++ [0x56#8]) with
  | .ok (i, rest) => i == q.2 && rest == [0x56#8]
  | .error _ => false

theorem test_decode_loads_and_stores_1 : List.all
    [([0xA9#8, 0x34#8], .ldaImm 0x34#8), ([0xA5#8, 0x34#8], .ldaZp 0x34#8),
     ([0xB5#8, 0x34#8], .ldaZpX 0x34#8), ([0xAD#8, 0x34#8, 0x12#8], .ldaAbs 0x1234#16),
     ([0xBD#8, 0x34#8, 0x12#8], .ldaAbsX 0x1234#16), ([0xB9#8, 0x34#8, 0x12#8], .ldaAbsY 0x1234#16),
     ([0xA1#8, 0x34#8], .ldaIndX 0x34#8), ([0xB1#8, 0x34#8], .ldaIndY 0x34#8),
     ([0xA2#8, 0x34#8], .ldxImm 0x34#8), ([0xA6#8, 0x34#8], .ldxZp 0x34#8),
     ([0xB6#8, 0x34#8], .ldxZpY 0x34#8), ([0xAE#8, 0x34#8, 0x12#8], .ldxAbs 0x1234#16),
     ([0xBE#8, 0x34#8, 0x12#8], .ldxAbsY 0x1234#16), ([0xA0#8, 0x34#8], .ldyImm 0x34#8),
     ([0xA4#8, 0x34#8], .ldyZp 0x34#8), ([0xB4#8, 0x34#8], .ldyZpX 0x34#8),
     ([0xAC#8, 0x34#8, 0x12#8], .ldyAbs 0x1234#16), ([0xBC#8, 0x34#8, 0x12#8], .ldyAbsX 0x1234#16),
     ([0x85#8, 0x34#8], .staZp 0x34#8), ([0x95#8, 0x34#8], .staZpX 0x34#8),
     ([0x8D#8, 0x34#8, 0x12#8], .staAbs 0x1234#16), ([0x9D#8, 0x34#8, 0x12#8], .staAbsX 0x1234#16),
     ([0x99#8, 0x34#8, 0x12#8], .staAbsY 0x1234#16), ([0x81#8, 0x34#8], .staIndX 0x34#8)] decodesTo = true := by decide

theorem test_decode_loads_and_stores_2 : List.all
    [([0x91#8, 0x34#8], .staIndY 0x34#8), ([0x86#8, 0x34#8], .stxZp 0x34#8),
     ([0x96#8, 0x34#8], .stxZpY 0x34#8), ([0x8E#8, 0x34#8, 0x12#8], .stxAbs 0x1234#16),
     ([0x84#8, 0x34#8], .styZp 0x34#8), ([0x94#8, 0x34#8], .styZpX 0x34#8),
     ([0x8C#8, 0x34#8, 0x12#8], .styAbs 0x1234#16)] decodesTo = true := by decide

theorem test_decode_transfers : List.all
    [([0xAA#8], .tax), ([0xA8#8], .tay), ([0x8A#8], .txa), ([0x98#8], .tya), ([0xBA#8], .tsx),
     ([0x9A#8], .txs)] decodesTo = true := by decide

theorem test_decode_arithmetic : List.all
    [([0x69#8, 0x34#8], .adcImm 0x34#8), ([0x65#8, 0x34#8], .adcZp 0x34#8),
     ([0x75#8, 0x34#8], .adcZpX 0x34#8), ([0x6D#8, 0x34#8, 0x12#8], .adcAbs 0x1234#16),
     ([0x7D#8, 0x34#8, 0x12#8], .adcAbsX 0x1234#16), ([0x79#8, 0x34#8, 0x12#8], .adcAbsY 0x1234#16),
     ([0x61#8, 0x34#8], .adcIndX 0x34#8), ([0x71#8, 0x34#8], .adcIndY 0x34#8),
     ([0xE9#8, 0x34#8], .sbcImm 0x34#8), ([0xE5#8, 0x34#8], .sbcZp 0x34#8),
     ([0xF5#8, 0x34#8], .sbcZpX 0x34#8), ([0xED#8, 0x34#8, 0x12#8], .sbcAbs 0x1234#16),
     ([0xFD#8, 0x34#8, 0x12#8], .sbcAbsX 0x1234#16), ([0xF9#8, 0x34#8, 0x12#8], .sbcAbsY 0x1234#16),
     ([0xE1#8, 0x34#8], .sbcIndX 0x34#8), ([0xF1#8, 0x34#8], .sbcIndY 0x34#8)] decodesTo = true := by decide

theorem test_decode_increments : List.all
    [([0xE6#8, 0x34#8], .incZp 0x34#8), ([0xF6#8, 0x34#8], .incZpX 0x34#8),
     ([0xEE#8, 0x34#8, 0x12#8], .incAbs 0x1234#16), ([0xFE#8, 0x34#8, 0x12#8], .incAbsX 0x1234#16),
     ([0xC6#8, 0x34#8], .decZp 0x34#8), ([0xD6#8, 0x34#8], .decZpX 0x34#8),
     ([0xCE#8, 0x34#8, 0x12#8], .decAbs 0x1234#16), ([0xDE#8, 0x34#8, 0x12#8], .decAbsX 0x1234#16),
     ([0xE8#8], .inx), ([0xC8#8], .iny), ([0xCA#8], .dex), ([0x88#8], .dey)] decodesTo = true := by decide

theorem test_decode_shifts : List.all
    [([0x06#8, 0x34#8], .aslZp 0x34#8), ([0x16#8, 0x34#8], .aslZpX 0x34#8),
     ([0x0E#8, 0x34#8, 0x12#8], .aslAbs 0x1234#16), ([0x1E#8, 0x34#8, 0x12#8], .aslAbsX 0x1234#16),
     ([0x0A#8], .aslAcc), ([0x46#8, 0x34#8], .lsrZp 0x34#8), ([0x56#8, 0x34#8], .lsrZpX 0x34#8),
     ([0x4E#8, 0x34#8, 0x12#8], .lsrAbs 0x1234#16), ([0x5E#8, 0x34#8, 0x12#8], .lsrAbsX 0x1234#16),
     ([0x4A#8], .lsrAcc), ([0x26#8, 0x34#8], .rolZp 0x34#8), ([0x36#8, 0x34#8], .rolZpX 0x34#8),
     ([0x2E#8, 0x34#8, 0x12#8], .rolAbs 0x1234#16), ([0x3E#8, 0x34#8, 0x12#8], .rolAbsX 0x1234#16),
     ([0x2A#8], .rolAcc), ([0x66#8, 0x34#8], .rorZp 0x34#8), ([0x76#8, 0x34#8], .rorZpX 0x34#8),
     ([0x6E#8, 0x34#8, 0x12#8], .rorAbs 0x1234#16), ([0x7E#8, 0x34#8, 0x12#8], .rorAbsX 0x1234#16),
     ([0x6A#8], .rorAcc)] decodesTo = true := by decide

theorem test_decode_logic_1 : List.all
    [([0x29#8, 0x34#8], .andImm 0x34#8), ([0x25#8, 0x34#8], .andZp 0x34#8),
     ([0x35#8, 0x34#8], .andZpX 0x34#8), ([0x2D#8, 0x34#8, 0x12#8], .andAbs 0x1234#16),
     ([0x3D#8, 0x34#8, 0x12#8], .andAbsX 0x1234#16), ([0x39#8, 0x34#8, 0x12#8], .andAbsY 0x1234#16),
     ([0x21#8, 0x34#8], .andIndX 0x34#8), ([0x31#8, 0x34#8], .andIndY 0x34#8),
     ([0x09#8, 0x34#8], .oraImm 0x34#8), ([0x05#8, 0x34#8], .oraZp 0x34#8),
     ([0x15#8, 0x34#8], .oraZpX 0x34#8), ([0x0D#8, 0x34#8, 0x12#8], .oraAbs 0x1234#16),
     ([0x1D#8, 0x34#8, 0x12#8], .oraAbsX 0x1234#16), ([0x19#8, 0x34#8, 0x12#8], .oraAbsY 0x1234#16),
     ([0x01#8, 0x34#8], .oraIndX 0x34#8), ([0x11#8, 0x34#8], .oraIndY 0x34#8),
     ([0x49#8, 0x34#8], .eorImm 0x34#8), ([0x45#8, 0x34#8], .eorZp 0x34#8),
     ([0x55#8, 0x34#8], .eorZpX 0x34#8), ([0x4D#8, 0x34#8, 0x12#8], .eorAbs 0x1234#16),
     ([0x5D#8, 0x34#8, 0x12#8], .eorAbsX 0x1234#16), ([0x59#8, 0x34#8, 0x12#8], .eorAbsY 0x1234#16),
     ([0x41#8, 0x34#8], .eorIndX 0x34#8), ([0x51#8, 0x34#8], .eorIndY 0x34#8)] decodesTo = true := by decide

theorem test_decode_logic_2 : List.all
    [([0x24#8, 0x34#8], .bitZp 0x34#8), ([0x2C#8, 0x34#8, 0x12#8], .bitAbs 0x1234#16),
     ([0xC9#8, 0x34#8], .cmpImm 0x34#8), ([0xC5#8, 0x34#8], .cmpZp 0x34#8),
     ([0xD5#8, 0x34#8], .cmpZpX 0x34#8), ([0xCD#8, 0x34#8, 0x12#8], .cmpAbs 0x1234#16),
     ([0xDD#8, 0x34#8, 0x12#8], .cmpAbsX 0x1234#16), ([0xD9#8, 0x34#8, 0x12#8], .cmpAbsY 0x1234#16),
     ([0xC1#8, 0x34#8], .cmpIndX 0x34#8), ([0xD1#8, 0x34#8], .cmpIndY 0x34#8),
     ([0xE0#8, 0x34#8], .cpxImm 0x34#8), ([0xE4#8, 0x34#8], .cpxZp 0x34#8),
     ([0xEC#8, 0x34#8, 0x12#8], .cpxAbs 0x1234#16), ([0xC0#8, 0x34#8], .cpyImm 0x34#8),
     ([0xC4#8, 0x34#8], .cpyZp 0x34#8), ([0xCC#8, 0x34#8, 0x12#8], .cpyAbs 0x1234#16)] decodesTo = true := by decide

theorem test_decode_branches : List.all
    [([0x10#8, 0x34#8], .bpl 0x34#8), ([0x30#8, 0x34#8], .bmi 0x34#8), ([0x50#8, 0x34#8], .bvc 0x34#8),
     ([0x70#8, 0x34#8], .bvs 0x34#8), ([0x90#8, 0x34#8], .bcc 0x34#8), ([0xB0#8, 0x34#8], .bcs 0x34#8),
     ([0xD0#8, 0x34#8], .bne 0x34#8), ([0xF0#8, 0x34#8], .beq 0x34#8)] decodesTo = true := by decide

theorem test_decode_jumps : List.all
    [([0x4C#8, 0x34#8, 0x12#8], .jmpAbs 0x1234#16), ([0x6C#8, 0x34#8, 0x12#8], .jmpInd 0x1234#16),
     ([0x20#8, 0x34#8, 0x12#8], .jsr 0x1234#16), ([0x60#8], .rts), ([0x40#8], .rti), ([0x00#8], .brk)] decodesTo = true := by decide

theorem test_decode_stack_and_flags : List.all
    [([0x48#8], .pha), ([0x08#8], .php), ([0x68#8], .pla), ([0x28#8], .plp), ([0x18#8], .clc),
     ([0x38#8], .sec), ([0x58#8], .cli), ([0x78#8], .sei), ([0xB8#8], .clv), ([0xD8#8], .cld),
     ([0xF8#8], .sed), ([0xEA#8], .nop)] decodesTo = true := by decide

theorem test_decode_refuses_an_unknown_byte : decode [0x80#8, 0x00#8] = .error (.unknownOpcode 0x80#8) := by rfl
theorem test_decode_refuses_a_missing_operand : decode [0xAD#8, 0x34#8] = .error .truncated := by rfl
theorem test_decode_table_word_takes_the_first_byte_from_the_low_bits :
    decodeTableWord 24 0x1234AD = some (.ldaAbs 0x1234#16) := by decide
theorem test_decode_table_word_ignores_bits_above_its_length :
    decodeTableWord 8 0x34A9 = some (.ldaImm 0x00#8) := by decide
/-! Steps. -/

/-- What `look` sees in the state after one step from s with bytes stored from PC on and data elsewhere. -/
def after {α : Type} (s : State) (code : List Byte) (data : List (Word × Byte)) (look : State → α) : Option α :=
  match step (data.foldl (fun t c => t.write c.1 c.2) (s.writeBytes s.pc code)) with
  | .next t => some (look t)
  | .fault _ | .refused _ => none

/-- A9 06 placed as a table word on State.reset is the instruction the very next step runs. -/
theorem test_withFetchWord_places_the_next_instruction :
    after (State.reset.withFetchWord 16 0x06A9) [] [] (fun t => (t.a, t.pc)) = some (0x06#8, 0x0002#16) := by
  decide

theorem test_V101_lda_immediate_zero :
    after { State.reset with pc := 0x8000#16, p := 0x80#8 }
      [0xA9#8, 0x00#8] []
      (fun t => (t.p, t.pc)) = some (0x02#8, 0x8002#16) := by decide
theorem test_V104_lda_zeroPageX_wraps_in_the_zero_page :
    after { State.reset with pc := 0x8000#16, x := 0x10#8 }
      [0xB5#8, 0xFA#8] [(0x000A#16, 0x55#8)]
      (fun t => (t.a, t.p, t.pc)) = some (0x55#8, 0x00#8, 0x8002#16) := by decide
theorem test_V107_lda_absoluteY_wraps_at_the_top :
    after { State.reset with pc := 0x8000#16, y := 0x20#8 }
      [0xB9#8, 0xF0#8, 0xFF#8] [(0x0010#16, 0x02#8)]
      (fun t => (t.a, t.p, t.pc)) = some (0x02#8, 0x00#8, 0x8003#16) := by decide
theorem test_V109_lda_indirectX_pointer_wraps :
    after { State.reset with pc := 0x8000#16, x := 0x01#8 }
      [0xA1#8, 0xFE#8] [(0x0000#16, 0x30#8), (0x00FF#16, 0x00#8), (0x0100#16, 0x40#8), (0x3000#16, 0x11#8), (0x4000#16, 0x22#8)]
      (fun t => (t.a, t.p, t.pc)) = some (0x11#8, 0x00#8, 0x8002#16) := by decide
theorem test_V111_lda_indirectY_pointer_wraps_and_page_crossed :
    after { State.reset with pc := 0x8000#16, y := 0x01#8 }
      [0xB1#8, 0xFF#8] [(0x0000#16, 0x12#8), (0x00FF#16, 0xFF#8), (0x0100#16, 0x34#8), (0x1300#16, 0x5A#8)]
      (fun t => (t.a, t.p, t.pc)) = some (0x5A#8, 0x00#8, 0x8002#16) := by decide
theorem test_V118_lda_absolute_operand_bytes_wrap_past_FFFF :
    after { State.reset with pc := 0xFFFE#16 }
      [0xAD#8, 0x34#8] [(0x0000#16, 0x12#8), (0x1234#16, 0x5A#8)]
      (fun t => (t.a, t.p, t.pc)) = some (0x5A#8, 0x00#8, 0x0001#16) := by decide
theorem test_V112_ldx_zeroPageY_wraps :
    after { State.reset with pc := 0x8000#16, y := 0x02#8 }
      [0xB6#8, 0xFF#8] [(0x0001#16, 0x81#8)]
      (fun t => (t.x, t.p, t.pc)) = some (0x81#8, 0x80#8, 0x8002#16) := by decide
theorem test_V113_ldy_absoluteX_zero :
    after { State.reset with pc := 0x8000#16, x := 0x05#8 }
      [0xBC#8, 0x00#8, 0x20#8] [(0x2005#16, 0x00#8)]
      (fun t => (t.p, t.pc)) = some (0x02#8, 0x8003#16) := by decide
theorem test_V114_sta_absoluteX_stores :
    after { State.reset with pc := 0x8000#16, a := 0x66#8, x := 0x01#8 }
      [0x9D#8, 0xFF#8, 0x20#8] []
      (fun t => (t.read 0x2100#16, t.p, t.pc)) = some (0x66#8, 0x00#8, 0x8003#16) := by decide
theorem test_V116_stx_zeroPageY_wraps :
    after { State.reset with pc := 0x8000#16, x := 0x77#8, y := 0x20#8 }
      [0x96#8, 0xF0#8] []
      (fun t => (t.read 0x0010#16, t.p, t.pc)) = some (0x77#8, 0x00#8, 0x8002#16) := by decide
theorem test_V117_sty_absolute_leaves_flags :
    after { State.reset with pc := 0x8000#16, y := 0x80#8, p := 0x02#8 }
      [0x8C#8, 0x00#8, 0x03#8] []
      (fun t => (t.read 0x0300#16, t.p, t.pc)) = some (0x80#8, 0x02#8, 0x8003#16) := by decide
theorem test_V201_tax_zero :
    after { State.reset with pc := 0x8000#16, x := 0x12#8 }
      [0xAA#8] []
      (fun t => (t.x, t.p, t.pc)) = some (0x00#8, 0x02#8, 0x8001#16) := by decide
theorem test_V202_tay_negative :
    after { State.reset with pc := 0x8000#16, a := 0x80#8 }
      [0xA8#8] []
      (fun t => (t.y, t.p, t.pc)) = some (0x80#8, 0x80#8, 0x8001#16) := by decide
theorem test_V203_txa_clears_flags :
    after { State.reset with pc := 0x8000#16, x := 0x7F#8, p := 0x82#8 }
      [0x8A#8] []
      (fun t => (t.a, t.p, t.pc)) = some (0x7F#8, 0x00#8, 0x8001#16) := by decide
theorem test_V204_tya_zero :
    after { State.reset with pc := 0x8000#16, a := 0x55#8 }
      [0x98#8] []
      (fun t => (t.a, t.p, t.pc)) = some (0x00#8, 0x02#8, 0x8001#16) := by decide
theorem test_V205_tsx_sets_negative :
    after { State.reset with pc := 0x8000#16 }
      [0xBA#8] []
      (fun t => (t.x, t.p, t.pc)) = some (0xFD#8, 0x80#8, 0x8001#16) := by decide
theorem test_V206_txs_changes_no_flag :
    after { State.reset with pc := 0x8000#16, p := 0x80#8 }
      [0x9A#8] []
      (fun t => (t.sp, t.p, t.pc)) = some (0x00#8, 0x80#8, 0x8001#16) := by decide
theorem test_V304_adc_carry_out :
    after { State.reset with pc := 0x8000#16, a := 0x50#8 }
      [0x69#8, 0xD0#8] []
      (fun t => (t.a, t.p, t.pc)) = some (0x20#8, 0x01#8, 0x8002#16) := by decide
theorem test_V308_adc_signed_overflow :
    after { State.reset with pc := 0x8000#16, a := 0x7F#8, p := 0x01#8 }
      [0x69#8, 0x00#8] []
      (fun t => (t.a, t.p, t.pc)) = some (0x80#8, 0xC0#8, 0x8002#16) := by decide
theorem test_V316_sbc_with_borrow :
    after { State.reset with pc := 0x8000#16, a := 0x05#8 }
      [0xE9#8, 0x05#8] []
      (fun t => (t.a, t.p, t.pc)) = some (0xFF#8, 0x80#8, 0x8002#16) := by decide
theorem test_V318_sbc_signed_overflow :
    after { State.reset with pc := 0x8000#16, a := 0x80#8, p := 0x01#8 }
      [0xE9#8, 0x01#8] []
      (fun t => (t.a, t.p, t.pc)) = some (0x7F#8, 0x41#8, 0x8002#16) := by decide
theorem test_V402_adc_decimal_carry :
    after { State.reset with pc := 0x8000#16, a := 0x58#8, p := 0x08#8 }
      [0x69#8, 0x46#8] []
      (fun t => (t.a, t.p, t.pc)) = some (0x04#8, 0xC9#8, 0x8002#16) := by decide
theorem test_V408_adc_decimal_of_an_invalid_digit :
    after { State.reset with pc := 0x8000#16, a := 0x0F#8, p := 0x08#8 }
      [0x69#8, 0x01#8] []
      (fun t => (t.a, t.p, t.pc)) = some (0x16#8, 0x08#8, 0x8002#16) := by decide
theorem test_V411_sbc_decimal :
    after { State.reset with pc := 0x8000#16, a := 0x46#8, p := 0x09#8 }
      [0xE9#8, 0x12#8] []
      (fun t => (t.a, t.p, t.pc)) = some (0x34#8, 0x09#8, 0x8002#16) := by decide
theorem test_V415_sbc_decimal_borrow :
    after { State.reset with pc := 0x8000#16, a := 0x50#8, p := 0x08#8 }
      [0xE9#8, 0x50#8] []
      (fun t => (t.a, t.p, t.pc)) = some (0x99#8, 0x88#8, 0x8002#16) := by decide
theorem test_V421_adc_ignores_decimal_mode :
    after { State.reset with pc := 0x8000#16, a := 0x09#8, p := 0x08#8, config := { Config.default with decimal := .ignored } }
      [0x69#8, 0x01#8] []
      (fun t => (t.a, t.p, t.pc)) = some (0x0A#8, 0x08#8, 0x8002#16) := by decide
theorem test_V422_sbc_ignores_decimal_mode :
    after { State.reset with pc := 0x8000#16, a := 0x10#8, p := 0x09#8, config := { Config.default with decimal := .ignored } }
      [0xE9#8, 0x01#8] []
      (fun t => (t.a, t.p, t.pc)) = some (0x0F#8, 0x09#8, 0x8002#16) := by decide
theorem test_V501_inc_wraps_and_keeps_carry :
    after { State.reset with pc := 0x8000#16, p := 0x01#8 }
      [0xE6#8, 0x10#8] [(0x0010#16, 0xFF#8)]
      (fun t => (t.read 0x0010#16, t.p, t.pc)) = some (0x00#8, 0x03#8, 0x8002#16) := by decide
theorem test_V504_dec_zeroPageX_wraps :
    after { State.reset with pc := 0x8000#16, x := 0x02#8 }
      [0xD6#8, 0xFF#8] [(0x0001#16, 0x01#8)]
      (fun t => (t.read 0x0001#16, t.p, t.pc)) = some (0x00#8, 0x02#8, 0x8002#16) := by decide
theorem test_V505_inx_wraps_and_keeps_overflow :
    after { State.reset with pc := 0x8000#16, x := 0xFF#8, p := 0x40#8 }
      [0xE8#8] []
      (fun t => (t.x, t.p, t.pc)) = some (0x00#8, 0x42#8, 0x8001#16) := by decide
theorem test_V506_iny_negative :
    after { State.reset with pc := 0x8000#16, y := 0x7F#8 }
      [0xC8#8] []
      (fun t => (t.y, t.p, t.pc)) = some (0x80#8, 0x80#8, 0x8001#16) := by decide
theorem test_V507_dex_wraps :
    after { State.reset with pc := 0x8000#16 }
      [0xCA#8] []
      (fun t => (t.x, t.p, t.pc)) = some (0xFF#8, 0x80#8, 0x8001#16) := by decide
theorem test_V508_dey_zero :
    after { State.reset with pc := 0x8000#16, y := 0x01#8 }
      [0x88#8] []
      (fun t => (t.y, t.p, t.pc)) = some (0x00#8, 0x02#8, 0x8001#16) := by decide
theorem test_V602_asl_accumulator_ignores_carry_in :
    after { State.reset with pc := 0x8000#16, a := 0x41#8, p := 0x01#8 }
      [0x0A#8] []
      (fun t => (t.a, t.p, t.pc)) = some (0x82#8, 0x80#8, 0x8001#16) := by decide
theorem test_V603_asl_memory :
    after { State.reset with pc := 0x8000#16 }
      [0x06#8, 0x20#8] [(0x0020#16, 0xC0#8)]
      (fun t => (t.read 0x0020#16, t.p, t.pc)) = some (0x80#8, 0x81#8, 0x8002#16) := by decide
theorem test_V605_lsr_memory :
    after { State.reset with pc := 0x8000#16 }
      [0x4E#8, 0x00#8, 0x30#8] [(0x3000#16, 0xFF#8)]
      (fun t => (t.read 0x3000#16, t.p, t.pc)) = some (0x7F#8, 0x01#8, 0x8003#16) := by decide
theorem test_V607_rol_accumulator_takes_carry_in :
    after { State.reset with pc := 0x8000#16, a := 0x40#8, p := 0x01#8 }
      [0x2A#8] []
      (fun t => (t.a, t.p, t.pc)) = some (0x81#8, 0x80#8, 0x8001#16) := by decide
theorem test_V608_rol_memory :
    after { State.reset with pc := 0x8000#16, x := 0x01#8, p := 0x01#8 }
      [0x36#8, 0x10#8] [(0x0011#16, 0xFF#8)]
      (fun t => (t.p, t.pc)) = some (0x81#8, 0x8002#16) := by decide
theorem test_V610_ror_accumulator_takes_carry_in :
    after { State.reset with pc := 0x8000#16, p := 0x01#8 }
      [0x6A#8] []
      (fun t => (t.a, t.p, t.pc)) = some (0x80#8, 0x80#8, 0x8001#16) := by decide
theorem test_V611_ror_memory :
    after { State.reset with pc := 0x8000#16, x := 0x10#8, p := 0x01#8 }
      [0x7E#8, 0x00#8, 0x30#8] [(0x3010#16, 0x02#8)]
      (fun t => (t.read 0x3010#16, t.p, t.pc)) = some (0x81#8, 0x80#8, 0x8003#16) := by decide
theorem test_V702_and_negative :
    after { State.reset with pc := 0x8000#16, a := 0xFF#8 }
      [0x29#8, 0xC0#8] []
      (fun t => (t.a, t.p, t.pc)) = some (0xC0#8, 0x80#8, 0x8002#16) := by decide
theorem test_V703_ora_negative :
    after { State.reset with pc := 0x8000#16, a := 0x01#8 }
      [0x09#8, 0x80#8] []
      (fun t => (t.a, t.p, t.pc)) = some (0x81#8, 0x80#8, 0x8002#16) := by decide
theorem test_V706_eor_negative :
    after { State.reset with pc := 0x8000#16, a := 0x0F#8 }
      [0x49#8, 0xFF#8] []
      (fun t => (t.a, t.p, t.pc)) = some (0xF0#8, 0x80#8, 0x8002#16) := by decide
theorem test_V707_bit_takes_flags_from_the_operand :
    after { State.reset with pc := 0x8000#16, a := 0x3F#8 }
      [0x24#8, 0x10#8] [(0x0010#16, 0xC0#8)]
      (fun t => (t.p, t.pc)) = some (0xC2#8, 0x8002#16) := by decide
theorem test_V710_cmp_less :
    after { State.reset with pc := 0x8000#16, a := 0x10#8 }
      [0xC9#8, 0x20#8] []
      (fun t => (t.p, t.pc)) = some (0x80#8, 0x8002#16) := by decide
theorem test_V713_cmp_ignores_decimal_mode :
    after { State.reset with pc := 0x8000#16, a := 0x80#8, p := 0x08#8 }
      [0xC9#8, 0x01#8] []
      (fun t => (t.p, t.pc)) = some (0x09#8, 0x8002#16) := by decide
theorem test_V714_cpx_equal :
    after { State.reset with pc := 0x8000#16, x := 0xFF#8 }
      [0xE0#8, 0xFF#8] []
      (fun t => (t.p, t.pc)) = some (0x03#8, 0x8002#16) := by decide
theorem test_V717_cpy_less :
    after { State.reset with pc := 0x8000#16, y := 0x7F#8 }
      [0xCC#8, 0x00#8, 0x20#8] [(0x2000#16, 0x80#8)]
      (fun t => (t.p, t.pc)) = some (0x80#8, 0x8003#16) := by decide
theorem test_V801_beq_taken :
    after { State.reset with pc := 0x8000#16, p := 0x02#8 }
      [0xF0#8, 0x05#8] []
      (fun t => (t.p, t.pc)) = some (0x02#8, 0x8007#16) := by decide
theorem test_V803_bne_to_itself :
    after { State.reset with pc := 0x8000#16 }
      [0xD0#8, 0xFE#8] []
      (fun t => (t.p, t.pc)) = some (0x00#8, 0x8000#16) := by decide
theorem test_V804_bpl_backward_128 :
    after { State.reset with pc := 0x8000#16 }
      [0x10#8, 0x80#8] []
      (fun t => (t.p, t.pc)) = some (0x00#8, 0x7F82#16) := by decide
theorem test_V805_bmi_crosses_a_page :
    after { State.reset with pc := 0x80F0#16, p := 0x80#8 }
      [0x30#8, 0x7F#8] []
      (fun t => (t.p, t.pc)) = some (0x80#8, 0x8171#16) := by decide
theorem test_V806_bvc_not_taken :
    after { State.reset with pc := 0x8000#16, p := 0x40#8 }
      [0x50#8, 0x10#8] []
      (fun t => (t.p, t.pc)) = some (0x40#8, 0x8002#16) := by decide
theorem test_V807_bvs_taken :
    after { State.reset with pc := 0x8000#16, p := 0x40#8 }
      [0x70#8, 0x10#8] []
      (fun t => (t.p, t.pc)) = some (0x40#8, 0x8012#16) := by decide
theorem test_V808_bcc_wraps_past_FFFF :
    after { State.reset with pc := 0xFFF0#16 }
      [0x90#8, 0x7F#8] []
      (fun t => (t.p, t.pc)) = some (0x00#8, 0x0071#16) := by decide
theorem test_V809_bcs_backward :
    after { State.reset with pc := 0x8000#16, p := 0x01#8 }
      [0xB0#8, 0xFC#8] []
      (fun t => (t.p, t.pc)) = some (0x01#8, 0x7FFE#16) := by decide
theorem test_V810_beq_at_FFFE :
    after { State.reset with pc := 0xFFFE#16, p := 0x02#8 }
      [0xF0#8, 0x02#8] []
      (fun t => (t.p, t.pc)) = some (0x02#8, 0x0002#16) := by decide
theorem test_V901_jmp_absolute :
    after { State.reset with pc := 0x8000#16 }
      [0x4C#8, 0x34#8, 0x12#8] []
      (fun t => (t.p, t.pc)) = some (0x00#8, 0x1234#16) := by decide
theorem test_V903_jmp_indirect_wraps_in_its_page :
    after { State.reset with pc := 0x8000#16 }
      [0x6C#8, 0xFF#8, 0x12#8] [(0x1200#16, 0x40#8), (0x12FF#16, 0x80#8), (0x1300#16, 0x50#8)]
      (fun t => (t.p, t.pc)) = some (0x00#8, 0x4080#16) := by decide
theorem test_V905_jsr_pushes_wrap_in_the_stack_page :
    after { State.reset with pc := 0x8000#16, sp := 0x00#8 }
      [0x20#8, 0x00#8, 0x90#8] []
      (fun t => (t.sp, t.read 0x0100#16, t.read 0x01FF#16, t.pc)) = some (0xFE#8, 0x80#8, 0x02#8, 0x9000#16) := by decide
theorem test_V907_rts_wraps :
    after { State.reset with pc := 0x8000#16, sp := 0xFB#8 }
      [0x60#8] [(0x01FC#16, 0xFF#8), (0x01FD#16, 0xFF#8)]
      (fun t => (t.sp, t.p, t.pc)) = some (0xFD#8, 0x00#8, 0x0000#16) := by decide
theorem test_V909_rti_keeps_bits_4_and_5 :
    after { State.reset with pc := 0x8000#16, sp := 0xFA#8 }
      [0x40#8] [(0x01FB#16, 0xFF#8), (0x01FC#16, 0x00#8), (0x01FD#16, 0x90#8)]
      (fun t => (t.sp, t.p, t.pc)) = some (0xFD#8, 0xCF#8, 0x9000#16) := by decide
theorem test_V910_brk_halts_and_pushes_nothing :
    after { State.reset with pc := 0x8000#16, a := 0x12#8 }
      [0x00#8] []
      (fun t => (t.sp, t.p, t.pc, t.rs, t.fr)) = some (0xFD#8, 0x00#8, 0x8001#16, .halted, .brk 0x8000#16) := by decide
theorem test_V1002_pha_wraps_sp :
    after { State.reset with pc := 0x8000#16, a := 0x42#8, sp := 0x00#8 }
      [0x48#8] []
      (fun t => (t.sp, t.read 0x0100#16, t.p, t.pc)) = some (0xFF#8, 0x42#8, 0x00#8, 0x8001#16) := by decide
theorem test_V1004_php_pushes_bits_4_and_5 :
    after { State.reset with pc := 0x8000#16, p := 0xC3#8 }
      [0x08#8] []
      (fun t => (t.sp, t.read 0x01FD#16, t.p, t.pc)) = some (0xFC#8, 0xF3#8, 0xC3#8, 0x8001#16) := by decide
theorem test_V1006_pla_wraps_sp :
    after { State.reset with pc := 0x8000#16, sp := 0xFF#8 }
      [0x68#8] [(0x0100#16, 0x80#8)]
      (fun t => (t.a, t.sp, t.p, t.pc)) = some (0x80#8, 0x00#8, 0x80#8, 0x8001#16) := by decide
theorem test_V1007_plp_keeps_bits_4_and_5 :
    after { State.reset with pc := 0x8000#16, sp := 0xFC#8 }
      [0x28#8] [(0x01FD#16, 0xFF#8)]
      (fun t => (t.sp, t.p, t.pc)) = some (0xFD#8, 0xCF#8, 0x8001#16) := by decide
theorem test_V1010_clc :
    after { State.reset with pc := 0x8000#16, p := 0xFF#8 }
      [0x18#8] []
      (fun t => (t.p, t.pc)) = some (0xFE#8, 0x8001#16) := by decide
theorem test_V1011_sec :
    after { State.reset with pc := 0x8000#16 }
      [0x38#8] []
      (fun t => (t.p, t.pc)) = some (0x01#8, 0x8001#16) := by decide
theorem test_V1012_cli :
    after { State.reset with pc := 0x8000#16, p := 0xFF#8 }
      [0x58#8] []
      (fun t => (t.p, t.pc)) = some (0xFB#8, 0x8001#16) := by decide
theorem test_V1013_sei :
    after { State.reset with pc := 0x8000#16 }
      [0x78#8] []
      (fun t => (t.p, t.pc)) = some (0x04#8, 0x8001#16) := by decide
theorem test_V1014_clv :
    after { State.reset with pc := 0x8000#16, p := 0xFF#8 }
      [0xB8#8] []
      (fun t => (t.p, t.pc)) = some (0xBF#8, 0x8001#16) := by decide
theorem test_V1015_cld :
    after { State.reset with pc := 0x8000#16, p := 0xFF#8 }
      [0xD8#8] []
      (fun t => (t.p, t.pc)) = some (0xF7#8, 0x8001#16) := by decide
theorem test_V1016_sed :
    after { State.reset with pc := 0x8000#16 }
      [0xF8#8] []
      (fun t => (t.p, t.pc)) = some (0x08#8, 0x8001#16) := by decide
theorem test_V1017_nop :
    after { State.reset with pc := 0x8000#16, a := 0x11#8, x := 0x22#8, y := 0x33#8, p := 0xC3#8 }
      [0xEA#8] []
      (fun t => (t.p, t.pc)) = some (0xC3#8, 0x8001#16) := by decide
theorem test_V1101_unknown_strict_faults :
    after { State.reset with pc := 0x8000#16 }
      [0x02#8, 0xA9#8, 0x05#8] []
      (fun t => (t.pc, t.rs, t.fr)) = some (0x8001#16, .faulted, .illegalOpcode 0x02#8 0x8000#16) := by decide

/-! Hypotheses of the obligations, met. -/

/-- State.reset with PC at 0x8000, and bytes placed there. -/
def holding (code : List Byte) : State := { State.reset with pc := 0x8000#16 }.writeBytes 0x8000#16 code

/-- The same machine under the permissive policy. -/
def permissive (code : List Byte) : State :=
  { holding code with config := { Config.default with unknownOpcode := .permissive } }

theorem test_witness_DecodedBytesAreTheEncoding :
    decode [0xA9#8, 0x06#8, 0x00#8] = .ok (.ldaImm 0x06#8, [0x00#8]) := by rfl
theorem test_witness_UnknownOpcodeBytesAreExactlyTheListed :
    decode [0x02#8] = .error (.unknownOpcode 0x02#8) ∧ decode [0xFF#8] = .error (.unknownOpcode 0xFF#8) ∧
    decode [0xFE#8, 0x00#8, 0x20#8] = .ok (.incAbsX 0x2000#16, []) := ⟨rfl, rfl, rfl⟩
theorem test_witness_OpcodeByteDecidesOperationModeAndLength :
    (Instr.ldaImm 0x01#8).opcode = (Instr.ldaImm 0x02#8).opcode := by rfl
theorem test_witness_StepRunsTheDecodedInstruction :
    (holding [0xA5#8, 0x10#8]).rs = .running ∧
    decode (holding [0xA5#8, 0x10#8]).fetchWindow = .ok (.ldaZp 0x10#8, [0x00#8]) := ⟨rfl, rfl⟩
theorem test_witness_StepRunsTheInstructionEncodedAtPc :
    let s := { State.reset with pc := 0xFFFF#16 }.writeBytes 0xFFFF#16 [0x4C#8, 0x34#8, 0x12#8]
    s.rs = .running ∧ ∀ (k : Nat) (h : k < (encode (.jmpAbs 0x1234#16)).length),
      s.read (s.pc + BitVec.ofNat 16 k) = (encode (.jmpAbs 0x1234#16))[k] := by decide
theorem test_witness_StepOutsideRunningDoesNothing :
    { State.reset with rs := .halted }.rs ≠ .running ∧ { State.reset with rs := .faulted }.rs ≠ .running ∧
    ∃ t, State.reset.load [0xEA#8] = .next t := ⟨by decide, by decide, _, rfl⟩
theorem test_witness_UnknownOpcodeUnderStrictFaults :
    (holding [0x02#8]).rs = .running ∧ (holding [0x02#8]).config.unknownOpcode = .strict ∧
    ((holding [0x02#8]).read (holding [0x02#8]).pc).toNat ∈ unknownBytes := by decide
theorem test_witness_UnknownOpcodeUnderPermissiveIsANoOp :
    (permissive [0xFF#8]).rs = .running ∧ (permissive [0xFF#8]).config.unknownOpcode = .permissive ∧
    ((permissive [0xFF#8]).read (permissive [0xFF#8]).pc).toNat ∈ unknownBytes := by decide
/-- One run of each outcome: halted, faulted, completed, and an unknown byte under the permissive policy. -/
theorem test_witness_StepEndsInExactlyOneOutcome :
    after (holding [0x00#8]) [] [] State.rs = some .halted ∧ after (holding [0x80#8]) [] [] State.rs = some .faulted ∧
    after (holding [0xEA#8]) [] [] State.rs = some .running ∧
    after (permissive [0x02#8]) [] [] (fun t => (t.rs, t.pc, t.diagnostics)) =
      some (.running, 0x8001#16, [{ op := 0x02#8, addr := 0x8000#16 }]) := by decide
theorem test_witness_PcEndsAfterAnInstructionThatIsNoTransfer :
    Instr.brk.op ∉ controlTransfers ∧ (Instr.incAbsX 0x2000#16).op ∉ controlTransfers := by decide
theorem test_witness_LoadsPutTheOperandInTheirRegister :
    (Instr.ldaIndX 0x20#8).op = .lda ∧ (Instr.ldxZpY 0x20#8).op = .ldx ∧ (Instr.ldyImm 0x20#8).op = .ldy := by decide
theorem test_witness_StoresWriteTheirRegisterAtTheEffectiveAddress :
    (Instr.staIndY 0x20#8).op = .sta ∧ (Instr.stxZpY 0x20#8).op = .stx ∧ (Instr.styAbs 0x2000#16).op = .sty := by
  decide
theorem test_witness_AdcAndSbcUseBinaryOrDecimalArithmetic :
    (Instr.adcImm 0x34#8).op = .adc ∧ (Instr.sbcAbsX 0x2000#16).op = .sbc ∧
    Instr.rti.op ∈ [Op.sed, .cld, .plp, .rti, .php] ∧ Flag.decimalMode.get 0x08#8 = true ∧
    State.reset.config.decimal = .nmos := by decide
theorem test_witness_AddBinaryIsTheSumWithCarryAndSignedOverflow :
    Flag.decimalMode ∉ [Flag.negative, .overflow, .zero, .carry] := by decide
theorem test_witness_AddDecimalIsTheNmosDigitSum : Flag.brk ∉ [Flag.negative, .overflow, .zero, .carry] := by decide
/-- 99 + 99 + 1 is 199 (V407), 0 + 0 + 0 is 0. -/
theorem test_witness_AddDecimalOfValidBcdIsDecimalAddition :
    99 < 100 ∧ (addDecimal (bcd 99) (bcd 99) 0x09#8).1 = 0x99#8 ∧
    (addDecimal (bcd 0) (bcd 0) 0x08#8).1 = 0x00#8 := by decide
/-- 50 - 50 - 1 is 99 with a borrow (V415), 99 - 0 - 1 is 98 (V416). -/
theorem test_witness_SubDecimalOfValidBcdIsDecimalSubtraction :
    99 < 100 ∧ (subDecimal (bcd 50) (bcd 50) 0x08#8).1 = 0x99#8 ∧
    (subDecimal (bcd 99) (bcd 0) 0x08#8).1 = 0x98#8 := by decide
theorem test_witness_IncAndDecReplaceTheByteAtTheEffectiveAddress :
    (Instr.incZpX 0xFF#8).op = .inc ∧ (Instr.incZpX 0xFF#8).mode ≠ .implied ∧
    (Instr.decAbs 0xFFFF#16).op = .dec ∧ (Instr.decAbs 0xFFFF#16).mode ≠ .implied := by decide
theorem test_witness_ShiftsAndRotatesMoveOneBitThroughCarry :
    Instr.aslAcc.op = .asl ∧ Instr.aslAcc.mode = .implied ∧ Instr.lsrAcc.op = .lsr ∧ Instr.rolAcc.op = .rol ∧
    (Instr.rorAbsX 0x3000#16).op = .ror ∧ (Instr.rorAbsX 0x3000#16).mode ≠ .implied := by decide
theorem test_witness_LogicalOperationsCombineAWithTheOperand :
    (Instr.andImm 0x0F#8).op = .and ∧ (Instr.oraIndY 0x20#8).op = .ora ∧ (Instr.eorAbsY 0x2000#16).op = .eor := by
  decide
theorem test_witness_BitTestsWithoutWritingA :
    (Instr.bitZp 0x10#8).op = .bit ∧ Flag.carry ∉ [Flag.zero, .overflow, .negative] := by decide
theorem test_witness_ComparesSetFlagsFromTheDifferenceOnly :
    (Instr.cmpImm 0x10#8).op = .cmp ∧ (Instr.cpxZp 0x10#8).op = .cpx ∧ (Instr.cpyAbs 0x2000#16).op = .cpy ∧
    Flag.overflow ∉ [Flag.carry, .zero, .negative] := by decide
/-- The subroutine's own state may differ in A. -/
theorem test_witness_RtsReturnsToTheInstructionAfterJsr :
    ∃ s t u, exec (.jsr 0x9000#16) s = .next t ∧ u ≠ t ∧ u.sp = t.sp ∧
      ∀ k ∈ [State.stackAddr s.sp, State.stackAddr (s.sp - 1#8)], u.read k = t.read k := by
  refine ⟨State.reset, _, (State.reset.push16 0x0002#16).setA 0x07#8, rfl, by decide, by decide, ?_⟩
  simp only [List.mem_cons, List.not_mem_nil, or_false, forall_eq, forall_eq_or_imp]
  decide
theorem test_witness_BrkHaltsAndWritesNothingElse :
    (holding [0x00#8]).rs = .running ∧ (holding [0x00#8]).read (holding [0x00#8]).pc = 0x00#8 := by decide
theorem test_witness_PullsUndoPushes :
    ∃ s t u, exec .php s = .next t ∧ u ≠ t ∧ u.sp = t.sp ∧
      u.read (State.stackAddr s.sp) = t.read (State.stackAddr s.sp) ∧ u.p &&& 0x30#8 = s.p &&& 0x30#8 :=
  ⟨State.reset.setP 0xC3#8, _, (State.reset.push 0xF3#8).setP 0x02#8, rfl, by decide, by decide, by decide, by decide⟩
theorem test_witness_PullsUndoPushes_pha :
    ∃ s t u, exec .pha s = .next t ∧ u ≠ t ∧ u.sp = t.sp ∧
      u.read (State.stackAddr s.sp) = t.read (State.stackAddr s.sp) :=
  ⟨State.reset.setA 0x42#8, _, State.reset.push 0x42#8, rfl, by decide, by decide, by decide⟩
theorem test_witness_FlagInstructionsWriteOneBitOfP :
    ∃ t u, exec .cld State.reset = .next t ∧ exec .sed State.reset = .next u := ⟨_, _, rfl, rfl⟩
theorem test_witness_IndirectPointerWrapsWithinItsPage :
    (0x12FE#16).toNat % 256 ≠ 255 ∧ (0x12FF#16).toNat % 256 = 255 ∧
    (0x0000#16).toNat % 256 ≠ 255 ∧ (0xFFFF#16).toNat % 256 = 255 := by decide
theorem test_witness_ZeroPagePointersWrapInTheZeroPage :
    Operand.zeroPageY 0xFF#8 ∈ [Operand.zeroPage 0xFF#8, .zeroPageX 0xFF#8, .zeroPageY 0xFF#8] ∧
    eaZeroPageY 0xFF#8 { State.reset with y := 0xFF#8 } = 0x00FE#16 := by decide
theorem test_witness_CanonicalMemoriesThatReadAlikeAreEqual :
    Memory.wf [(0x0000, 0x01#8), (0xFFFF, 0xFF#8)] := by decide
theorem test_witness_UpdateZNWritesZeroAndNegativeOnly : flagsWritten Instr.inx.op = [.negative, .zero] := by decide
theorem test_witness_StatusRegisterAccessContract :
    (0x81#8 : Byte) ≠ 0#8 ∧ isSetMask 0x81#8 0x80#8 = .ok false ∧ isSetMask 0x81#8 0xFF#8 = .ok true ∧
    isSetMask 0x00#8 0xFF#8 = .error .zeroFlagMask := ⟨by decide, rfl, rfl, rfl⟩
/-- JSR makes five accesses and two writes; the byte beside them is not listed. -/
theorem test_witness_StepChangesMemoryOnlyByItsListedWrites :
    let s := holding [0x20#8, 0x00#8, 0x90#8]
    (stepAccesses s).filterMap Access.writeAddr = [0x01FD#16, 0x01FC#16] ∧ (stepAccesses s).length = 5 ∧
    (0x01FB#16 : Word) ∉ (stepAccesses s).filterMap Access.writeAddr := by decide
/-- A memory that differs at 0x0011, which LDA $10 does not read. -/
theorem test_witness_StepDependsOnlyOnTheBytesItReads :
    (stepAccesses (holding [0xA5#8, 0x10#8])).filterMap Access.readAddr = [0x8000#16, 0x8001#16, 0x0010#16] ∧
    (holding [0xA5#8, 0x10#8]).mem.write 0x0011 0x01#8 ≠ (holding [0xA5#8, 0x10#8]).mem ∧
    ∀ k ∈ [0x8000#16, 0x8001#16, 0x0010#16],
      ((holding [0xA5#8, 0x10#8]).mem.write 0x0011 0x01#8).read k.toNat = (holding [0xA5#8, 0x10#8]).read k := by
  simp only [List.mem_cons, List.not_mem_nil, or_false, forall_eq, forall_eq_or_imp]
  decide
theorem test_witness_RegistersAreWrittenOnlyByTheListedInstructions :
    Instr.nop.op ∉ [Op.lda, .txa, .tya, .pla, .adc, .sbc, .and, .ora, .eor] ∧
    ¬(Instr.nop.op ∈ [Op.asl, .lsr, .rol, .ror] ∧ Instr.nop.mode = .implied) ∧
    Instr.nop.op ∉ [Op.ldx, .tax, .tsx, .inx, .dex] ∧ Instr.nop.op ∉ [Op.ldy, .tay, .iny, .dey] ∧
    Instr.nop.op ∉ [Op.txs, .pha, .php, .pla, .plp, .jsr, .rts, .rti] := by decide
theorem test_witness_FlagsAreWrittenOnlyAsTheSummaryTableSays :
    Flag.overflow ∉ flagsWritten (Instr.incZp 0x10#8).op ∧ (Instr.bitAbs 0x2000#16).op = .bit ∧
    Instr.lsrAcc.op = .lsr ∧ Instr.plp.op = .plp ∧ Instr.rti.op = .rti ∧ Instr.sed.op = .sed ∧
    Flag.interruptDisable ∈ flagsWritten Instr.rti.op := by decide
theorem test_witness_RunStateAndRecordChangeOnlyByBrk : Instr.nop.op ≠ .brk := by decide
theorem test_witness_EveryStepKeepsTheStateLegal :
    (holding [0x48#8]).Legal ∧ { State.reset with rs := .halted, fr := .brk 0x8000#16 }.Legal ∧
    { State.reset with rs := .faulted, fr := .illegalOpcode 0x02#8 0x8000#16 }.Legal :=
  ⟨⟨by decide, trivial, rfl, rfl, fun _ => rfl⟩, ⟨by decide, trivial, rfl, rfl, fun _ => rfl⟩,
    ⟨by decide, trivial, rfl, rfl, fun _ => rfl⟩⟩
theorem test_witness_ResetNewAndHostCallsGiveLegalStates :
    (holding [0x48#8]).Legal ∧ ∃ t, (holding [0x48#8]).load [0xEA#8] = .next t :=
  ⟨⟨by decide, trivial, rfl, rfl, fun _ => rfl⟩, _, rfl⟩
/-- The longest accepted program and the shortest refused one. -/
theorem test_witness_LoadPlacesTheProgramThenTheVector :
    (List.replicate 0x8000 0xEA#8).length ≤ 0x8000 ∧ (List.replicate 0x8001 0xEA#8).length > 0x8000 := by
  rw [List.length_replicate, List.length_replicate]; decide
/-- A run of each end, and one that may resume: BRK, NOP with the stop signal, NOP without it; and a load_and_run
that ends. -/
theorem test_witness_RunReturnsAtTheEndOrTheStopSignalAndMayResume :
    (∃ t, step (holding [0x00#8]) = .next t ∧ t.rs ≠ .running ∧
      run [false] (holding [0x00#8]) = .next { state := t, how := .ended }) ∧
    (∃ t, step (holding [0xEA#8]) = .next t ∧ t.rs = .running ∧
      run [true] (holding [0xEA#8]) = .next { state := t, how := .stopped } ∧
      run [false] (holding [0xEA#8]) = .next { state := t, how := .unfinished }) ∧
    ([0x00#8] : List Byte).length ≤ 0x8000 ∧
    ∃ t, loadAndRun [0x00#8] [false] State.reset = .next { state := t, how := .ended } :=
  ⟨⟨_, rfl, by decide, rfl⟩, ⟨_, rfl, by decide, rfl, rfl⟩, by decide, _, rfl⟩

end Sys2Proof.Tests
end

section
/-! PROOF LAYER. One equation for `exec`, by operation: the 151 constructors of Instr differ in the operand only, so a
fact about an operation is proved over the 56 constructors of Op. Then what each operation does to each field. -/

namespace Sys2Proof.Machine

/-- The byte an instruction works on; 0 where its mode has none, and then the operation does not use it (R423). -/
def operandByte (i : Instr) (s : State) : Byte := (operandValue s i.operand).getD 0#8

/-- The effective address of an instruction; 0 where its mode has none, and then the operation does not use it. -/
def operandAddr (i : Instr) (s : State) : Word := (operandEa s i.operand).getD 0#16

/-- A shift or rotate, on the accumulator or on the byte at ea (45_shift_rotate.md R524). -/
def shiftEffect (f : Byte → Byte → Byte × Byte) (acc : Bool) (ea : Word) (s : State) : State :=
  if acc then s.modifyA f else s.modifyMem f ea

/-- A branch to ea (47_branch.md R560). -/
def branchEffect (cond : Bool) (ea : Word) (s : State) : State := s.setPc (if cond then ea else s.pc)

/-- What an operation does to the state after the resolver: acc tells the accumulator form, m is the operand byte, ea
the effective address, addr the address of the opcode. -/
def opEffect (op : Op) (acc : Bool) (m : Byte) (ea addr : Word) (s : State) : State :=
  match op with
  | .lda => opLda m s
  | .ldx => opLdx m s
  | .ldy => opLdy m s
  | .sta => opSta ea s
  | .stx => opStx ea s
  | .sty => opSty ea s
  | .tax => opTax s
  | .tay => opTay s
  | .txa => opTxa s
  | .tya => opTya s
  | .tsx => opTsx s
  | .txs => opTxs s
  | .adc => opAdc m s
  | .sbc => opSbc m s
  | .inc => opInc ea s
  | .dec => opDec ea s
  | .inx => opInx s
  | .iny => opIny s
  | .dex => opDex s
  | .dey => opDey s
  | .asl => shiftEffect aslByte acc ea s
  | .lsr => shiftEffect lsrByte acc ea s
  | .rol => shiftEffect rolByte acc ea s
  | .ror => shiftEffect rorByte acc ea s
  | .and => opAnd m s
  | .ora => opOra m s
  | .eor => opEor m s
  | .bit => opBit m s
  | .cmp => opCmp m s
  | .cpx => opCpx m s
  | .cpy => opCpy m s
  | .bpl => branchEffect (!Flag.negative.get s.p) ea s
  | .bmi => branchEffect (Flag.negative.get s.p) ea s
  | .bvc => branchEffect (!Flag.overflow.get s.p) ea s
  | .bvs => branchEffect (Flag.overflow.get s.p) ea s
  | .bcc => branchEffect (!Flag.carry.get s.p) ea s
  | .bcs => branchEffect (Flag.carry.get s.p) ea s
  | .bne => branchEffect (!Flag.zero.get s.p) ea s
  | .beq => branchEffect (Flag.zero.get s.p) ea s
  | .jmp => opJmp ea s
  | .jsr => opJsr ea s
  | .rts => opRts s
  | .rti => opRti s
  | .brk => s.halt addr
  | .pha => opPha s
  | .php => opPhp s
  | .pla => opPla s
  | .plp => opPlp s
  | .clc => opClc s
  | .sec => opSec s
  | .cli => opCli s
  | .sei => opSei s
  | .clv => opClv s
  | .cld => opCld s
  | .sed => opSed s
  | .nop => opNop s

theorem opBranch_eq_branchEffect (cond : Bool) (off : Byte) (s : State) :
    opBranch cond off s = branchEffect cond (eaRelative off s.pc) s := by
  cases cond <;> rfl

/-- Outside the four modes with no byte to read, the operand byte is `Operand()` (R423). -/
theorem operandValue_eq_operandByte {i : Instr} (h : i.mode ∉ [.relative, .indirect, .implied, .noneAddressing])
    (s : State) : operandValue s i.operand = some (operandByte i s) := by
  rw [Instr.mode] at h
  rw [operandByte]
  cases ho : i.operand <;> rw [ho] at h
  case relative | indirect | implied | noneAddressing => simp [Operand.mode] at h
  all_goals rfl

/-- The state an instruction leaves, in the state whose PC is the address of its opcode. -/
def instrEffect (i : Instr) (s : State) : State :=
  opEffect i.op (i.mode == .implied) (operandByte i s) (operandAddr i s) s.pc (s.advance i.length)

/-- Every instruction has a next state: its operation's effect on its operand, PC past its bytes (R400). -/
theorem exec_eq_instrEffect (i : Instr) (s : State) : exec i s = .next (instrEffect i s) := by
  cases i
  case bpl | bmi | bvc | bvs | bcc | bcs | bne | beq =>
    exact congrArg Host.Outcome.next (opBranch_eq_branchEffect _ _ _)
  all_goals rfl

/-- Every term of Instr passes its well-formedness check (30_encoding.md R306). -/
theorem instr_wellFormed (i : Instr) : i.wellFormed = true := by cases i <;> rfl

theorem mode_mem_modes (i : Instr) : i.mode ∈ i.op.modes := by
  simpa [Instr.wellFormed, pairWellFormed] using instr_wellFormed i

/-- Both modes of BIT have an operand byte. -/
theorem operandValue_of_bit {i : Instr} (h : i.op = .bit) (s : State) :
    operandValue s i.operand = some (operandByte i s) := by
  have hmodes : ∀ mode ∈ Op.modes .bit, mode ∉ [.relative, .indirect, .implied, .noneAddressing] := by decide
  exact operandValue_eq_operandByte (hmodes _ (h ▸ mode_mem_modes i)) s

section
variable (op : Op) (acc : Bool) (m : Byte) (ea addr : Word) (s : State)

/-! The fields no operation, or only a few, may write (10_state.md R101 to R104, R130 to R132). -/

@[simp] theorem opEffect_config : (opEffect op acc m ea addr s).config = s.config := by
  cases op <;> cases acc <;> rfl

@[simp] theorem opEffect_diagnostics : (opEffect op acc m ea addr s).diagnostics = s.diagnostics := by
  cases op <;> cases acc <;> rfl

variable {op acc}

theorem opEffect_rs (h : op ≠ .brk) : (opEffect op acc m ea addr s).rs = s.rs := by
  cases op
  case brk => exact absurd rfl h
  all_goals cases acc <;> rfl

theorem opEffect_fr (h : op ≠ .brk) : (opEffect op acc m ea addr s).fr = s.fr := by
  cases op
  case brk => exact absurd rfl h
  all_goals cases acc <;> rfl

theorem opEffect_a (h : op ∉ [.lda, .txa, .tya, .pla, .adc, .sbc, .and, .ora, .eor])
    (hacc : ¬(op ∈ [.asl, .lsr, .rol, .ror] ∧ acc = true)) : (opEffect op acc m ea addr s).a = s.a := by
  cases op
  case lda | txa | tya | pla | adc | sbc | and | ora | eor => exact absurd (by decide) h
  case asl | lsr | rol | ror =>
    cases acc
    · rfl
    · exact absurd (by decide) hacc
  all_goals rfl

theorem opEffect_x (h : op ∉ [.ldx, .tax, .tsx, .inx, .dex]) : (opEffect op acc m ea addr s).x = s.x := by
  cases op
  case ldx | tax | tsx | inx | dex => exact absurd (by decide) h
  all_goals cases acc <;> rfl

theorem opEffect_y (h : op ∉ [.ldy, .tay, .iny, .dey]) : (opEffect op acc m ea addr s).y = s.y := by
  cases op
  case ldy | tay | iny | dey => exact absurd (by decide) h
  all_goals cases acc <;> rfl

theorem opEffect_sp (h : op ∉ [.txs, .pha, .php, .pla, .plp, .jsr, .rts, .rti]) :
    (opEffect op acc m ea addr s).sp = s.sp := by
  cases op
  case txs | pha | php | pla | plp | jsr | rts | rti => exact absurd (by decide) h
  all_goals cases acc <;> rfl

end

end Sys2Proof.Machine
end

section
/-! PROOF LAYER. Each computation of P changes the flags it is listed with, and no other. -/

namespace Sys2Proof.Machine

/-- `is_set`'s test, bit by bit (10_state.md R112). -/
theorem and_mask_eq_mask_iff (mask p : Byte) :
    p &&& mask = mask ↔ ∀ k < 8, mask.getLsbD k = true → p.getLsbD k = true := by
  constructor
  · intro h k _ hm
    rw [← h, BitVec.getLsbD_and, Bool.and_eq_true] at hm
    exact hm.1
  · intro h
    refine BitVec.eq_of_getLsbD_eq fun k hk => ?_
    rw [BitVec.getLsbD_and, Bool.and_eq_right_iff_imp]
    exact h k hk

theorem get_updateZN_of_other {f : Flag} (h : f ∉ [Flag.negative, .zero]) (v p : Byte) :
    f.get (updateZN v p) = f.get p := by
  simp only [List.mem_cons, List.not_mem_nil, or_false, not_or] at h
  simp [h]

/-- The four shifts and rotates set P alike: C from a bit of the operand, Z and N from the result. -/
theorem get_updateZN_putCarry_of_other {f : Flag} (h : f ∉ [Flag.negative, .zero, .carry]) (v p : Byte) (c : Bool) :
    f.get (updateZN v (Flag.carry.put c p)) = f.get p := by
  simp only [List.mem_cons, List.not_mem_nil, or_false, not_or] at h
  simp [h]

theorem get_compareFlags_of_other {f : Flag} (h : f ∉ [Flag.negative, .zero, .carry]) (r m p : Byte) :
    f.get (compareFlags r m p) = f.get p := by
  simp only [List.mem_cons, List.not_mem_nil, or_false, not_or] at h
  simp [h]

theorem get_bitFlags_of_other {f : Flag} (h : f ∉ [Flag.negative, .overflow, .zero]) (a m p : Byte) :
    f.get (bitFlags a m p) = f.get p := by
  simp only [List.mem_cons, List.not_mem_nil, or_false, not_or] at h
  simp [h]

theorem get_put_of_other {f g : Flag} (h : f ∉ [g]) (c : Bool) (p : Byte) : f.get (g.put c p) = f.get p := by
  rw [Flag.get_put, if_neg (by simpa using h)]

/-- Bits 4 and 5, the two that PLP and RTI leave alone, are the two flags missing from their columns of R121. -/
theorem mem_flagsWritten_plp_iff (f : Flag) : f ∈ flagsWritten .plp ↔ ¬(f = .brk ∨ f = .unused) := by
  cases f <;> decide

theorem get_opAdc_of_other {f : Flag} (h : f ∉ flagsWritten .adc) (m : Byte) (s : State) :
    f.get (opAdc m s).p = f.get s.p := by
  simp only [opAdc, State.setAP_p]
  split
  · exact get_addDecimal_of_other f _ _ _ h
  · exact get_addBinary_of_other f _ _ _ h

theorem get_opSbc_of_other {f : Flag} (h : f ∉ flagsWritten .sbc) (m : Byte) (s : State) :
    f.get (opSbc m s).p = f.get s.p := by
  simp only [opSbc, State.setAP_p]
  split
  · exact get_subDecimal_of_other f _ _ _ h
  · exact get_addBinary_of_other f _ _ _ h

/-- Each operation keeps the flags that its columns of R121 mark `-`. -/
theorem get_opEffect_of_other {op : Op} {f : Flag} (h : f ∉ flagsWritten op) (acc : Bool) (m : Byte)
    (ea addr : Word) (s : State) : f.get (opEffect op acc m ea addr s).p = f.get s.p := by
  cases op
  case adc => exact get_opAdc_of_other h _ _
  case sbc => exact get_opSbc_of_other h _ _
  case lda | ldx | ldy | tax | tay | txa | tya | tsx | pla | inc | dec | inx | iny | dex | dey | and | ora | eor =>
    exact get_updateZN_of_other h _ _
  case asl | lsr | rol | ror => cases acc <;> exact get_updateZN_putCarry_of_other h _ _ _
  case cmp | cpx | cpy => exact get_compareFlags_of_other h _ _ _
  case bit => exact get_bitFlags_of_other h _ _ _
  case clc | sec | cli | sei | clv | cld | sed => exact get_put_of_other h _ _
  case plp | rti =>
    exact (get_pulledStatus f _ _).trans (if_pos ((mem_flagsWritten_plp_iff f).not_left.mp h))
  all_goals rfl

theorem brk_not_mem_flagsWritten (op : Op) : Flag.brk ∉ flagsWritten op := by cases op <;> decide

theorem unused_not_mem_flagsWritten (op : Op) : Flag.unused ∉ flagsWritten op := by cases op <;> decide

/-- LSR moves a 0 into bit 7, in both forms (45_shift_rotate.md R521). -/
theorem negative_lsrByte (v p : Byte) : Flag.negative.get (lsrByte v p).2 = false := by
  simp [lsrByte]

theorem negative_opEffect_lsr (acc : Bool) (m : Byte) (ea addr : Word) (s : State) :
    Flag.negative.get (opEffect .lsr acc m ea addr s).p = false := by
  cases acc <;> exact negative_lsrByte _ _

/-- PLP and RTI take the flags of their columns from the pulled byte. -/
theorem get_opEffect_pulled {op : Op} (hop : op = .plp ∨ op = .rti) {f : Flag} (hf : f ∈ flagsWritten op)
    (acc : Bool) (m : Byte) (ea addr : Word) (s : State) :
    f.get (opEffect op acc m ea addr s).p = f.get (s.read (State.stackAddr (s.sp + 1#8))) := by
  rcases hop with rfl | rfl <;>
    exact (get_pulledStatus f _ _).trans (if_neg ((mem_flagsWritten_plp_iff f).mp hf))

end Sys2Proof.Machine
end

section
/-! PROOF LAYER. Every operation, and every step, keeps the state legal. -/

namespace Sys2Proof.Machine

/-- Every operation keeps the canonical form: its writes to memory are byte stores and pushes. -/
theorem wf_opEffect {s : State} (h : s.mem.wf) (op : Op) (acc : Bool) (m : Byte) (ea addr : Word) :
    (opEffect op acc m ea addr s).mem.wf := by
  cases op
  case sta | stx | sty | inc | dec => exact State.wf_write h _ _
  case asl | lsr | rol | ror =>
    cases acc
    · exact State.wf_write h _ _
    · exact h
  case jsr => exact State.wf_push16 h _
  case pha | php => exact State.wf_push h _
  all_goals exact h

theorem State.recordAgrees_congr {s t : State} (hrs : t.rs = s.rs) (hfr : t.fr = s.fr) (h : s.RecordAgrees) :
    t.RecordAgrees := by
  unfold State.RecordAgrees at h ⊢
  rwa [hrs, hfr]

/-- Every operation keeps RS and FR in agreement: only BRK writes them, and it writes both. -/
theorem recordAgrees_opEffect {s : State} (h : s.RecordAgrees) (op : Op) (acc : Bool) (m : Byte) (ea addr : Word) :
    (opEffect op acc m ea addr s).RecordAgrees := by
  by_cases hop : op = .brk
  · subst hop; trivial
  · exact State.recordAgrees_congr (opEffect_rs m ea addr s hop) (opEffect_fr m ea addr s hop) h

theorem legal_opEffect {s : State} (h : s.Legal) (op : Op) (acc : Bool) (m : Byte) (ea addr : Word) :
    (opEffect op acc m ea addr s).Legal where
  memory := wf_opEffect h.memory ..
  record := recordAgrees_opEffect h.record ..
  breakClear := (get_opEffect_of_other (brk_not_mem_flagsWritten op) ..).trans h.breakClear
  unusedClear := (get_opEffect_of_other (unused_not_mem_flagsWritten op) ..).trans h.unusedClear
  strictSilent := by simpa using h.strictSilent

theorem State.Legal.advance {s : State} (h : s.Legal) (n : Nat) : (s.advance n).Legal :=
  ⟨h.memory, h.record, h.breakClear, h.unusedClear, h.strictSilent⟩

theorem legal_instrEffect {s : State} (h : s.Legal) (i : Instr) : (instrEffect i s).Legal :=
  legal_opEffect (h.advance _) ..

/-- The unknown-opcode policy keeps the state legal: strict writes RS and FR together, permissive may emit. -/
theorem State.Legal.unknownOpcode {s : State} (h : s.Legal) (op : Byte) (addr : Word) :
    (s.unknownOpcode op addr).Legal := by
  cases hc : s.config.unknownOpcode with
  | strict =>
    rw [unknownOpcode_strict hc]
    exact ⟨h.memory, trivial, h.breakClear, h.unusedClear, h.strictSilent⟩
  | permissive =>
    rw [unknownOpcode_permissive hc]
    exact ⟨h.memory, h.record, h.breakClear, h.unusedClear, fun hs => by simp [hc] at hs⟩

end Sys2Proof.Machine
end

section
/-! PROOFS. The statements of 10_state.md. -/

open Sys2Proof Sys2Proof.Machine

/-- Settles O56: the three ways a step can go, each keeping the state legal. -/
theorem everyStepKeepsTheStateLegal : Obligations.EveryStepKeepsTheStateLegal := by
  intro s h
  obtain ⟨-, hs⟩ | ⟨i, -, -, hs⟩ | ⟨op, -, -, hs⟩ := step_cases s
  · exact ⟨s, hs, h⟩
  · exact ⟨_, hs.trans (exec_eq_instrEffect i s), legal_instrEffect h i⟩
  · exact ⟨_, hs, (h.advance 1).unknownOpcode op s.pc⟩

/-- Settles O53: the frame of each operation in A, X, Y and SP. -/
theorem registersAreWrittenOnlyByTheListedInstructions :
    Obligations.RegistersAreWrittenOnlyByTheListedInstructions := by
  intro i s
  refine ⟨_, exec_eq_instrEffect i s, fun h hacc => ?_, opEffect_x _ _ _ _, opEffect_y _ _ _ _, opEffect_sp _ _ _ _⟩
  exact opEffect_a _ _ _ _ h (by simpa using hacc)

/-- Settles O54: the frame of each operation in P, then the constants and the copies. -/
theorem flagsAreWrittenOnlyAsTheSummaryTableSays : Obligations.FlagsAreWrittenOnlyAsTheSummaryTableSays := by
  intro i s
  refine ⟨_, exec_eq_instrEffect i s, fun f hf => get_opEffect_of_other hf .., brk_not_mem_flagsWritten _,
    unused_not_mem_flagsWritten _, fun h => ?lsr, fun h => ⟨_, operandValue_of_bit h s, ?bit⟩, fun h => ?clc,
    fun h => ?sec, fun h => ?cli, fun h => ?sei, fun h => ?clv, fun h => ?cld, fun h => ?sed,
    fun h f hf => get_opEffect_pulled h hf ..⟩
  case lsr => rw [instrEffect, h]; exact negative_opEffect_lsr ..
  case bit => rw [instrEffect, h]; simp [opEffect, opBit]
  all_goals
    rw [instrEffect, h]
    exact (Flag.get_put ..).trans (if_pos rfl)

/-- Settles O50: the bits of `set` and `clear`, and `is_set` by whether its mask is 0. -/
theorem statusRegisterAccessContract : Obligations.StatusRegisterAccessContract := by
  intro mask p
  refine ⟨fun k _ => ?set, fun k hk => ?clear, rfl, fun hmask => ⟨p &&& mask == mask, ?isSet, ?bits⟩⟩
  case set => rw [setMask, BitVec.getLsbD_or, Bool.or_comm]
  case clear => simp [clearMask, hk, Bool.and_comm]
  case isSet => rw [isSetMask, if_pos (by simpa [maskWellFormed] using hmask)]
  case bits => rw [beq_iff_eq, and_mask_eq_mask_iff]

end

section
/-! PROOF LAYER. Memory as the array of 20_memory.md: what a canonical memory lists, next addresses as numbers, and a
pull after its push. -/

namespace Sys2Proof

/-- wrap16(addr + 1) of 20_memory.md R203. -/
theorem ofNat_succ_mod_eq_add_one (addr : Word) : BitVec.ofNat 16 ((addr.toNat + 1) % 65536) = addr + 1#16 := by
  bv_omega

/-- wrap8(zp + 1) of 20_memory.md R205, as an address. -/
theorem ofNat_succ_mod_eq_zext16_add_one (zp : Byte) :
    BitVec.ofNat 16 ((zp.toNat + 1) % 256) = zext16 (zp + 1#8) := by
  rw [zext16, ← BitVec.ofNat_toNat, BitVec.toNat_add, BitVec.toNat_ofNat]

theorem toNat_zext16_lt (b : Byte) : (zext16 b).toNat < 0x100 := (toNat_zext16 b).trans_lt b.isLt

namespace Machine

namespace Memory

/-- Every memory, canonical or not: a byte that is not an unlisted address's is listed. -/
theorem mem_of_read_ne_unlisted {m : Memory} {k : Nat} (h : m.read k ≠ unlisted) : (k, m.read k) ∈ m := by
  induction m with
  | nil => exact absurd rfl h
  | cons c m ih =>
    by_cases hc : c.1 = k
    · simp [read, ← hc]
    · simp only [read, if_neg hc] at h ⊢
      exact List.mem_cons_of_mem _ (ih h)

/-- Where the addresses rise, the entry of an address is the only one, so it is what a read finds. -/
theorem read_of_mem {m : Memory} (hs : m.Pairwise (fun c d => c.1 < d.1)) {c : Host.Cell} (hc : c ∈ m) :
    m.read c.1 = c.2 := by
  induction m with
  | nil => cases hc
  | cons d m ih =>
    obtain ⟨hlt, hs'⟩ := List.pairwise_cons.mp hs
    rcases List.mem_cons.mp hc with rfl | hc
    · simp [read]
    · simp only [read, if_neg (hlt c hc).ne]
      exact ih hs' hc

/-- A canonical memory lists exactly the bytes of the array that are not an unlisted address's. -/
theorem mem_iff_read {m : Memory} (h : m.wf) {k : Nat} {v : Byte} :
    (k, v) ∈ m ↔ k < 65536 ∧ m.read k = v ∧ v ≠ unlisted := by
  obtain ⟨hs, hb⟩ := h
  constructor
  · exact fun hc => ⟨(hb _ hc).1, read_of_mem hs hc, (hb _ hc).2⟩
  · rintro ⟨-, rfl, hv⟩
    exact mem_of_read_ne_unlisted hv

/-- The entries of a canonical memory rise, so its members fix it as a list. -/
theorem eq_of_mem_iff {m n : Memory} (hm : m.wf) (hn : n.wf) (h : ∀ c, c ∈ m ↔ c ∈ n) : m = n :=
  have : Std.Irrefl fun c d : Host.Cell => c.1 < d.1 := ⟨fun c => lt_irrefl c.1⟩
  have : Std.Antisymm fun c d : Host.Cell => c.1 < d.1 := ⟨fun _ _ hcd hdc => absurd hcd hdc.asymm⟩
  hm.1.eq_of_mem_iff hn.1 h

end Memory

namespace State

/-- Reading back a 16-bit value, at 0xFFFF too: the two addresses differ, so neither write hides the other. -/
theorem read16_write16 (s : State) (addr v : Word) : (s.write16 addr v).read16 addr = v := by
  obtain ⟨-, hread⟩ := write16_spec s addr v
  rw [read16, hread, hread, if_pos rfl, if_neg (succ_ne addr).symm, if_pos rfl, hiLo_hiByte_loByte]

/-- The two bytes of 20_memory.md R204 may be stored in either order. -/
theorem read_write_comm (s : State) {a b : Word} (hab : a ≠ b) (u v : Byte) (k : Word) :
    ((s.write a u).write b v).read k = ((s.write b v).write a u).read k := by
  by_cases ha : k = a
  · simp [read_write, ha, hab]
  · simp [read_write, ha]

/-- 20_memory.md R212: the word comes back, and SP with it. -/
theorem pull16_push16 (s : State) (w : Word) : (s.push16 w).pull16 = (w, (s.push16 w).setSp s.sp) := by
  obtain ⟨hstate, hread⟩ := push16_spec s w
  have hsp : (s.push16 w).sp = s.sp - 2#8 := by rw [hstate, setSp_sp]
  have hlow : s.sp - 2#8 + 1#8 = s.sp - 1#8 := by bv_omega
  have hhigh : s.sp - 2#8 + 2#8 = s.sp := by bv_omega
  rw [pull16_spec, hsp, hlow, hhigh, hread, hread, if_pos rfl, if_neg (stackAddr_pred_ne s.sp).symm, if_pos rfl,
    hiLo_hiByte_loByte]

theorem toNat_stackAddr_le (sp : Byte) : (stackAddr sp).toNat ≤ 0x1FF := by
  have := sp.isLt
  rw [toNat_stackAddr]
  omega

end State

end Machine

end Sys2Proof
end

section
/-! PROOFS. The statements of 20_memory.md. -/

open Sys2Proof Sys2Proof.Machine

/-- Settles O44: the bytes a 16-bit store leaves, and the two stores commuting because their addresses differ. -/
theorem sixteenBitAccessesAreLittleEndianAndRoundTrip :
    Obligations.SixteenBitAccessesAreLittleEndianAndRoundTrip := by
  intro s addr v
  have hne : addr ≠ addr + 1#16 := (State.succ_ne addr).symm
  refine ⟨?value, rfl, fun k => ?bytes, fun k => s.read_write_comm hne _ _ k, (s.write16_spec addr v).1,
    s.read16_write16 addr v⟩
  case value => rw [State.read16, toNat_hiLo, ofNat_succ_mod_eq_add_one]
  case bytes => rw [State.write16, s.read_write_comm hne, State.read_write, State.read_write]

/-- Settles O45: the pointer's two bytes, and each zero-page address a byte extended. -/
theorem zeroPagePointersWrapInTheZeroPage : Obligations.ZeroPagePointersWrapInTheZeroPage := by
  intro s zp
  refine ⟨?pointer, fun o ho => ?bound⟩
  case pointer => rw [State.readZp16, toNat_hiLo, ofNat_succ_mod_eq_zext16_add_one, BitVec.ofNat_toNat, ← zext16]
  case bound =>
    simp only [List.mem_cons, List.not_mem_nil, or_false] at ho
    rcases ho with rfl | rfl | rfl <;> exact ⟨_, rfl, toNat_zext16_lt _⟩

/-- Settles O47: memories that read alike have the same members, and a canonical memory is fixed by its members. -/
theorem canonicalMemoriesThatReadAlikeAreEqual : Obligations.CanonicalMemoriesThatReadAlikeAreEqual := by
  intro m n hm hn hread
  refine Memory.eq_of_mem_iff hm hn fun ⟨k, v⟩ => ?_
  rw [Memory.mem_iff_read hm, Memory.mem_iff_read hn]
  exact and_congr_right fun hk => by rw [hread k hk]

/-- Settles O48: each primitive by its law, and the pull that undoes the push. -/
theorem pushAndPullStayInTheStackPage : Obligations.PushAndPullStayInTheStackPage := by
  intro s v w
  obtain ⟨hpush, hbyte⟩ := s.push_spec v
  refine ⟨State.toNat_stackAddr _, State.toNat_stackAddr_le _, hbyte, hpush, rfl, rfl, ?pull16, ?word, ?sp⟩
  case pull16 =>
    have hstate := congrArg Prod.snd s.pull16_spec
    exact Prod.ext rfl hstate
  case word => rw [State.pull16_push16]
  case sp => rw [State.pull16_push16, State.setSp_sp]

/-- Settles O46: one byte of the array, and the state's memory alone. -/
theorem byteWriteChangesOneByte : Obligations.ByteWriteChangesOneByte :=
  fun s addr v => ⟨fun k => s.read_write addr k v, rfl⟩

end

section
/-! PROOF LAYER. The decoder by the opcode table's entries: the operand bytes an entry reads, the entry an
instruction's opcode byte selects, and the table in rows of sixteen. -/

namespace Sys2Proof

/-- From these operand bytes the entry builds this instruction (30_encoding.md R300). -/
inductive Entry.Reads : Entry → List Byte → Instr → Prop
  | noOperand (m : Mode) (i : Instr) : Reads (.noOperand m i) [] i
  | byteOperand (m : Mode) (build : Byte → Instr) (b : Byte) : Reads (.byteOperand m build) [b] (build b)
  | wordOperand (m : Mode) (build : Word → Instr) (w : Word) :
      Reads (.wordOperand m build) [loByte w, hiByte w] (build w)

theorem Entry.reads_wordOperand_hiLo (m : Mode) (build : Word → Instr) (lo hi : Byte) :
    (Entry.wordOperand m build).Reads [lo, hi] (build (hiLo hi lo)) := by
  simpa using Reads.wordOperand m build (hiLo hi lo)

/-- All that a successful decode is: an opcode byte, the operand bytes its entry reads, and the rest. -/
theorem decode_eq_ok_iff {bytes rest : List Byte} {i : Instr} :
    decode bytes = .ok (i, rest) ↔ ∃ op ops, bytes = op :: (ops ++ rest) ∧ (opcodeTable op).Reads ops i := by
  constructor
  · intro h
    unfold decode at h
    split at h
    case h_1 => cases h
    case h_2 op bytes =>
      refine ⟨op, ?_⟩
      split at h <;> cases h
      case h_2 m hE => exact ⟨[], rfl, hE ▸ .noOperand m i⟩
      case h_3 m build b hE => exact ⟨[b], rfl, hE ▸ .byteOperand m build b⟩
      case h_5 m build lo hi hE => exact ⟨[lo, hi], rfl, hE ▸ Entry.reads_wordOperand_hiLo m build lo hi⟩
  · rintro ⟨op, ops, rfl, h⟩
    generalize hE : opcodeTable op = e at h
    cases h <;> simp [decode, hE]

/-- Too few operand bytes are another error, so only an Unknown entry answers this one. -/
theorem decode_eq_unknownOpcode_iff {op : Byte} {rest : List Byte} :
    decode (op :: rest) = .error (.unknownOpcode op) ↔ (opcodeTable op).mode = none := by
  cases hE : opcodeTable op with
  | unknown => simp [decode, hE, Entry.mode]
  | noOperand => simp [decode, hE, Entry.mode]
  | byteOperand => rcases rest with _ | ⟨b, rest⟩ <;> simp [decode, hE, Entry.mode]
  | wordOperand => rcases rest with _ | ⟨lo, _ | ⟨hi, rest⟩⟩ <;> simp [decode, hE, Entry.mode]

/-- The per-operation table of R306 within the map of R305: an instruction's opcode byte selects the entry that
reads the instruction back from its operand bytes. -/
theorem opcodeTable_reads (i : Instr) : (opcodeTable i.opcode).Reads i.operand.bytes i := by
  cases i <;> simp only [Instr.opcode] <;> constructor

/-- The map of R305 within the per-operation table of R306. -/
theorem encode_of_reads {op : Byte} {ops : List Byte} {i : Instr} (h : (opcodeTable op).Reads ops i) :
    encode i = op :: ops := by
  have hencodes := opcodeTable_encodes op
  generalize opcodeTable op = e at h hencodes
  cases h with
  | noOperand => exact hencodes
  | byteOperand _ _ b => exact hencodes b
  | wordOperand _ _ w => exact hencodes w

theorem Operand.length_bytes (o : Operand) : o.bytes.length = o.mode.operandWidth := by
  cases o <;> rfl

theorem length_encode (i : Instr) : (encode i).length = i.length := by
  rw [encode, List.length_cons, Operand.length_bytes, Instr.length, Instr.mode, Nat.add_comm]

/-- The first k rows of n columns, in reading order. -/
theorem range_mul_eq_flatMap_rows (n k : Nat) :
    List.range (n * k) = (List.range k).flatMap fun row => (List.range n).map (n * row + ·) := by
  induction k with
  | zero => rfl
  | succ k ih =>
    rw [Nat.mul_succ, List.range_add, ih, List.range_succ (n := k), List.flatMap_append, List.flatMap_singleton]

/-- The opcode bytes in the rows of R305's map. -/
theorem range_256_eq_flatMap_rows :
    List.range 256 = (List.range 16).flatMap fun row => (List.range 16).map (16 * row + ·) :=
  range_mul_eq_flatMap_rows 16 16

/-- R308's list is the Unknown cells of R305's map, row by row. -/
theorem unknownBytes_eq_filter :
    Machine.unknownBytes = (List.range 256).filter fun n => (opcodeTable (BitVec.ofNat 8 n)).mode == none := by
  rw [range_256_eq_flatMap_rows, List.filter_flatMap]
  decide

theorem mem_unknownBytes_iff (op : Byte) : op.toNat ∈ Machine.unknownBytes ↔ (opcodeTable op).mode = none := by
  have hlt : op.toNat < 256 := op.isLt
  simp [unknownBytes_eq_filter, hlt]

end Sys2Proof
end

section
/-! PROOFS. The statements of 30_encoding.md. -/

open Sys2Proof Sys2Proof.Machine

/-- Settles O1: the entry of the instruction's own opcode byte reads it back. -/
theorem decodeOfEncodeGivesTheInstruction : Obligations.DecodeOfEncodeGivesTheInstruction :=
  fun i _ => decode_eq_ok_iff.mpr ⟨i.opcode, i.operand.bytes, rfl, opcodeTable_reads i⟩

/-- Settles O2: what was decoded was read by an entry, and every entry agrees with the encoder. -/
theorem decodedBytesAreTheEncoding : Obligations.DecodedBytesAreTheEncoding := by
  intro bytes rest i h
  obtain ⟨op, ops, rfl, hreads⟩ := decode_eq_ok_iff.mp h
  rw [encode_of_reads hreads, List.cons_append]

/-- Settles O3: the error is the Unknown entry's, and the Unknown entries are the listed ones. -/
theorem unknownOpcodeBytesAreExactlyTheListed : Obligations.UnknownOpcodeBytesAreExactlyTheListed :=
  fun op _ => decode_eq_unknownOpcode_iff.trans (mem_unknownBytes_iff op).symm

/-- Settles O5: operation and mode are the table entry's, and the length is the mode's. -/
theorem opcodeByteDecidesOperationModeAndLength : Obligations.OpcodeByteDecidesOperationModeAndLength := by
  intro i j h
  obtain ⟨hmodeI, hopI⟩ := opcodeTable_opcode i 0#8 0#8
  obtain ⟨hmodeJ, hopJ⟩ := opcodeTable_opcode j 0#8 0#8
  rw [h] at hmodeI hopI
  have hop : i.op = j.op := Option.some.inj (hopI.symm.trans hopJ)
  have hmode : i.mode = j.mode := Option.some.inj (hmodeI.symm.trans hmodeJ)
  have hlength : i.length = j.length := by rw [Instr.length, Instr.length, hmode]
  exact ⟨hop, hmode, hlength, length_encode i, (length_encode j).trans hlength.symm⟩

/-- Settles O4: counted over the sixteen rows of the map. -/
theorem opcodeTableCountsByMode : Obligations.OpcodeTableCountsByMode := by
  unfold Obligations.OpcodeTableCountsByMode
  simp only [range_256_eq_flatMap_rows, List.countP_flatMap]
  decide

/-- Settles O6: each word is the encoding of its instruction, which decodes back. -/
theorem sampleWordsDecode : Obligations.SampleWordsDecode :=
  have decoded := fun i => decodeOfEncodeGivesTheInstruction i []
  ⟨decoded (.ldaImm 0x06#8), decoded .tax, decoded (.ldaZpX 0xFA#8), decoded .brk, decoded (.ldaAbs 0x1234#16),
    decoded (.jmpInd 0x0120#16), decoded (.bne 0xFA#8), decoded .aslAcc, decoded (.ldaIndY 0x20#8)⟩

end

section
/-! PROOF LAYER. The fetch as the bytes at PC: an instruction is fetched exactly where its encoding lies. -/

namespace Sys2Proof.Machine

theorem length_eq_one_or_two_or_three (i : Instr) : i.length = 1 ∨ i.length = 2 ∨ i.length = 3 := by
  rw [Instr.length]
  cases i.mode <;> decide

theorem length_encode_le_three (i : Instr) : (encode i).length ≤ 3 := by
  rw [length_encode]
  rcases length_eq_one_or_two_or_three i with h | h | h <;> omega

namespace State

theorem fetchWindow_eq_map (s : State) :
    s.fetchWindow = (List.range 3).map fun k => s.read (s.pc + BitVec.ofNat 16 k) := by
  simp [fetchWindow, List.range_succ]

/-- `fetch` looks at the three bytes from PC on as the decoder does. -/
theorem fetch_eq_ok_iff_decode {s : State} {i : Instr} :
    s.fetch = .ok i ↔ ∃ rest, decode s.fetchWindow = .ok (i, rest) := by
  cases hE : opcodeTable (s.read s.pc) <;> simp [fetch, fetchWindow, decode, hE, Entry.instr]

theorem fetch_eq_ok_iff_prefix {s : State} {i : Instr} : s.fetch = .ok i ↔ encode i <+: s.fetchWindow := by
  rw [fetch_eq_ok_iff_decode]
  constructor
  · rintro ⟨rest, h⟩
    exact ⟨rest, (decodedBytesAreTheEncoding _ _ _ h).symm⟩
  · rintro ⟨rest, h⟩
    exact ⟨rest, h ▸ decodeOfEncodeGivesTheInstruction i rest⟩

/-- An instruction is fetched exactly where each byte of its encoding lies at its offset from PC (R400). -/
theorem fetch_eq_ok_iff {s : State} {i : Instr} :
    s.fetch = .ok i ↔
      ∀ (k : Nat) (h : k < (encode i).length), s.read (s.pc + BitVec.ofNat 16 k) = (encode i)[k] := by
  have hlength := length_encode_le_three i
  rw [fetch_eq_ok_iff_prefix, fetchWindow_eq_map, List.prefix_iff_getElem]
  simp [hlength, eq_comm]

/-- The fetch fails exactly on an Unknown opcode byte, which it names. -/
theorem fetch_eq_error_iff {s : State} {op : Byte} :
    s.fetch = .error op ↔ op = s.read s.pc ∧ (opcodeTable op).mode = none := by
  refine ⟨fetch_error, ?_⟩
  rintro ⟨rfl, h⟩
  cases hE : opcodeTable (s.read s.pc) <;> simp [hE, Entry.mode] at h
  simp [fetch, hE, Entry.instr]

end State

end Sys2Proof.Machine
end

section
/-! PROOF LAYER. What an operation does to PC, and the flags that `UpdateZN` writes (R402, R430). -/

namespace Sys2Proof.Machine

/-- Only a control transfer writes PC: any other operation leaves it where the resolver put it (R402). -/
theorem opEffect_pc {op : Op} (h : op ∉ controlTransfers) (acc : Bool) (m : Byte) (ea addr : Word) (s : State) :
    (opEffect op acc m ea addr s).pc = s.pc := by
  cases op
  case bpl | bmi | bvc | bvs | bcc | bcs | bne | beq | jmp | jsr | rts | rti => exact absurd (by decide) h
  all_goals cases acc <;> rfl

/-- The operations for which R121 gives N and Z and no other flag end with `UpdateZN` of their result (R430). -/
theorem exists_opEffect_p_eq_updateZN {op : Op} (h : flagsWritten op = [.negative, .zero]) (acc : Bool) (m : Byte)
    (ea addr : Word) (s : State) : ∃ v, (opEffect op acc m ea addr s).p = updateZN v s.p := by
  cases op
  case lda | ldx | ldy | tax | tay | txa | tya | tsx | pla | inc | dec | inx | iny | dex | dey | and | ora | eor =>
    exact ⟨_, rfl⟩
  all_goals cases h

theorem get_and (f : Flag) (p q : Byte) : f.get (p &&& q) = (f.get p && f.get q) := BitVec.getLsbD_and ..

/-- The mask 0x7D is the six bits other than Z and N. -/
theorem get_0x7D (f : Flag) : f.get 0x7D#8 = decide (f ∉ [Flag.negative, .zero]) := by cases f <;> decide

theorem updateZN_and_0x7D (v p : Byte) : updateZN v p &&& 0x7D#8 = p &&& 0x7D#8 := by
  refine Flag.ext_get fun f => ?_
  rw [get_and, get_and, get_0x7D]
  by_cases h : f ∈ [Flag.negative, .zero]
  · simp [h]
  · rw [get_updateZN_of_other h]

theorem and_0x80_ne_zero_iff (v : Byte) : v &&& 0x80#8 ≠ 0#8 ↔ v.getLsbD 7 = true := by
  rw [show 0x80#8 = BitVec.twoPow 8 7 from rfl, BitVec.and_twoPow]
  cases v.getLsbD 7 <;> decide

end Sys2Proof.Machine
end

section
/-! PROOF LAYER. The run, by what its next step comes to, and `load` before it (R404, 60_exceptions.md R722, R723). -/

namespace Sys2Proof.Machine

/-- Every step has a next state: no instruction of this core stops the machine (R401). -/
theorem exists_step_eq_next (s : State) : ∃ t, step s = .next t := by
  obtain ⟨-, hs⟩ | ⟨i, -, -, hs⟩ | ⟨op, -, -, hs⟩ := step_cases s
  · exact ⟨_, hs⟩
  · exact ⟨_, hs.trans (exec_eq_instrEffect i s)⟩
  · exact ⟨_, hs⟩

/-- A run ends, stops or goes on at the state its next step leaves. -/
theorem run_cons {s t : State} (h : step s = .next t) (stop : Bool) (later : List Bool) :
    (t.rs ≠ .running → run (stop :: later) s = .next { state := t, how := .ended }) ∧
    (t.rs = .running → stop = true → run (stop :: later) s = .next { state := t, how := .stopped }) ∧
    (t.rs = .running → stop = false → run (stop :: later) s = run later t) := by
  refine ⟨fun ht => ?ended, fun ht hstop => ?stopped, fun ht hstop => ?running⟩
  case ended => simp [run, h, State.isRunning, ht]
  case stopped => subst hstop; simp [run, h, State.isRunning, ht]
  case running => subst hstop; exact run_cons_running h (by simp [State.isRunning, ht])

theorem State.rs_of_ne_running {s : State} (h : s.rs ≠ .running) : s.rs = .halted ∨ s.rs = .faulted := by
  cases hr : s.rs with
  | running => exact absurd hr h
  | halted => exact .inl rfl
  | faulted => exact .inr rfl

/-- Whatever the readings, a run comes back to the host, and says rightly how (60_exceptions.md R723). -/
theorem exists_run_eq_next (signal : List Bool) (s : State) :
    ∃ r, run signal s = .next r ∧
      (r.how = .ended → r.state.rs = .halted ∨ r.state.rs = .faulted) ∧
      (r.how = .stopped → r.state.rs = .running ∧ true ∈ signal) ∧
      (r.how = .unfinished → s.rs = .running → r.state.rs = .running) := by
  induction signal generalizing s with
  | nil => exact ⟨_, rfl, nofun, nofun, fun _ => id⟩
  | cons stop later ih =>
    obtain ⟨t, hstep⟩ := exists_step_eq_next s
    obtain ⟨hended, hstopped, hrunning⟩ := run_cons hstep stop later
    by_cases ht : t.rs = .running
    · cases stop with
      | true => exact ⟨_, hstopped ht rfl, nofun, fun _ => ⟨ht, List.mem_cons_self⟩, nofun⟩
      | false =>
        obtain ⟨r, hr, he, hs, hu⟩ := ih t
        exact ⟨r, (hrunning ht rfl).trans hr, he, fun h => (hs h).imp_right (List.mem_cons_of_mem _),
          fun h _ => hu h ht⟩
    · exact ⟨_, hended ht, fun _ => State.rs_of_ne_running ht, nofun, nofun⟩

/-- A run whose readings are used up resumes: all its steps left the core Running, so more readings continue it. -/
theorem run_append {signal : List Bool} {s t : State} (h : run signal s = .next { state := t, how := .unfinished })
    (later : List Bool) : run (signal ++ later) s = run later t := by
  induction signal generalizing s with
  | nil => cases h; rfl
  | cons stop signal ih =>
    obtain ⟨u, hstep⟩ := exists_step_eq_next s
    obtain ⟨hended, hstopped, hrunning⟩ := run_cons hstep stop signal
    by_cases hu : u.rs = .running
    · cases stop with
      | true => cases (hstopped hu rfl).symm.trans h
      | false =>
        obtain ⟨-, -, hrunning'⟩ := run_cons hstep false (signal ++ later)
        exact (hrunning' hu rfl).trans (ih ((hrunning hu rfl).symm.trans h))
    · cases (hended hu).symm.trans h

theorem programWellFormed_iff (program : List Byte) : programWellFormed program = true ↔ program.length ≤ 0x8000 :=
  decide_eq_true_iff

namespace State

theorem load_of_length_le {program : List Byte} (h : program.length ≤ 0x8000) (s : State) :
    s.load program = .next ((s.writeBytes loadBase program).write16 resetVector loadBase) :=
  if_pos ((programWellFormed_iff program).mpr h)

theorem load_of_lt_length {program : List Byte} (h : 0x8000 < program.length) (s : State) :
    s.load program = .refused (.programTooLarge program.length) :=
  if_neg fun hp => h.not_ge ((programWellFormed_iff program).mp hp)

theorem writeBytes_rs (bytes : List Byte) (s : State) (addr : Word) : (s.writeBytes addr bytes).rs = s.rs := by
  rw [(writeBytes_spec bytes s addr).1, setMem_rs]

end State

end Sys2Proof.Machine
end

section
/-! PROOF LAYER. The effective addresses as numbers (40_execution_and_addressing.md R410 to R422). -/

namespace Sys2Proof.Machine

theorem toNat_eaImmediate (s : State) : (eaImmediate s).toNat = (s.pc.toNat + 1) % 65536 :=
  BitVec.toNat_add ..

theorem toNat_eaZeroPageX (b : Byte) (s : State) : (eaZeroPageX b s).toNat = (b.toNat + s.x.toNat) % 256 := by
  rw [eaZeroPageX, toNat_zext16, BitVec.toNat_add]

theorem toNat_eaZeroPageY (b : Byte) (s : State) : (eaZeroPageY b s).toNat = (b.toNat + s.y.toNat) % 256 := by
  rw [eaZeroPageY, toNat_zext16, BitVec.toNat_add]

theorem toNat_eaAbsoluteX (w : Word) (s : State) : (eaAbsoluteX w s).toNat = (w.toNat + s.x.toNat) % 65536 := by
  rw [eaAbsoluteX, BitVec.toNat_add, toNat_zext16]

theorem toNat_eaAbsoluteY (w : Word) (s : State) : (eaAbsoluteY w s).toNat = (w.toNat + s.y.toNat) % 65536 := by
  rw [eaAbsoluteY, BitVec.toNat_add, toNat_zext16]

/-- The branch target wraps in 16 bits whichever way its offset points. -/
theorem toNat_eaRelative (off : Byte) (next : Word) :
    ((eaRelative off next).toNat : Int) = ((next.toNat : Int) + signed8 off) % 65536 := by
  have hoff : (sext16 off).toInt = signed8 off := BitVec.toInt_signExtend_of_le (by decide)
  rw [eaRelative, BitVec.toNat_add, ← hoff, BitVec.toInt_eq_toNat_cond]
  split <;> omega

/-- A zero-page pointer: its high byte's address wraps within the zero page (20_memory.md R205). -/
theorem toNat_readZp16 (s : State) (zp : Byte) :
    (s.readZp16 zp).toNat =
      (s.read (BitVec.ofNat 16 ((zp.toNat + 1) % 256))).toNat * 256 +
        (s.read (BitVec.ofNat 16 (zp.toNat % 256))).toNat := by
  rw [Nat.mod_eq_of_lt zp.isLt]
  exact (zeroPagePointersWrapInTheZeroPage s zp).1

theorem toNat_eaIndirectY (b : Byte) (s : State) :
    (eaIndirectY b s).toNat = ((s.readZp16 b).toNat + s.y.toNat) % 65536 := by
  rw [eaIndirectY, BitVec.toNat_add, toNat_zext16]

theorem toNat_indirectHighAddr (ptr : Word) :
    (indirectHighAddr ptr).toNat = ptr.toNat / 256 * 256 + (ptr.toNat % 256 + 1) % 256 := by
  rw [indirectHighAddr, toNat_hiLo, toNat_hiByte, BitVec.toNat_add, toNat_loByte]
  rfl

theorem toNat_eaIndirect (ptr : Word) (s : State) :
    (eaIndirect ptr s).toNat =
      (s.read (BitVec.ofNat 16 (ptr.toNat / 256 * 256 + (ptr.toNat % 256 + 1) % 256))).toNat * 256 +
        (s.read (BitVec.ofNat 16 ptr.toNat)).toNat := by
  rw [eaIndirect, toNat_hiLo, ← toNat_indirectHighAddr]
  simp

theorem indirectHighAddr_of_ne {ptr : Word} (h : ptr.toNat % 256 ≠ 255) : indirectHighAddr ptr = ptr + 1#16 := by
  have hhigh := toNat_indirectHighAddr ptr
  bv_omega

theorem indirectHighAddr_of_eq {ptr : Word} (h : ptr.toNat % 256 = 255) : indirectHighAddr ptr = ptr - 0xFF#16 := by
  have hhigh := toNat_indirectHighAddr ptr
  bv_omega

end Sys2Proof.Machine
end

section
/-! PROOF LAYER. The access list of R425 against the step: its writes are what the step does to memory, its reads are
all that the step takes from memory. -/

namespace Sys2Proof.Machine

/-! The list by the three ways a step can go. -/

theorem stepAccesses_stopped {s : State} (h : s.rs ≠ .running) : stepAccesses s = [] := by
  simp [stepAccesses, State.isRunning, h]

theorem stepAccesses_fetched {s : State} {i : Instr} (hr : s.rs = .running) (hf : s.fetch = .ok i) :
    stepAccesses s = .read s.pc :: (resolverReads i.operand s ++ bodyAccesses i s) := by
  simp [stepAccesses, State.isRunning, hr, hf]

theorem stepAccesses_unknown {s : State} {op : Byte} (hr : s.rs = .running) (hf : s.fetch = .error op) :
    stepAccesses s = [.read s.pc] := by
  simp [stepAccesses, State.isRunning, hr, hf]

/-! The writes. -/

theorem applyWrites_append (l k : List Access) (m : Memory) :
    applyWrites (l ++ k) m = applyWrites k (applyWrites l m) := by
  induction l generalizing m with
  | nil => rfl
  | cons access l ih => cases access <;> exact ih _

theorem read_applyWrites_of_not_mem {l : List Access} {k : Word} (h : k ∉ l.filterMap Access.writeAddr)
    (m : Memory) : (applyWrites l m).read k.toNat = m.read k.toNat := by
  induction l generalizing m with
  | nil => rfl
  | cons access l ih =>
    cases access with
    | read => exact ih h m
    | write addr v =>
      obtain ⟨hne, hk⟩ : k ≠ addr ∧ k ∉ l.filterMap Access.writeAddr := not_or.mp (mt List.mem_cons.mpr h)
      exact (ih hk _).trans (m.read_write_of_ne v fun e => hne (BitVec.eq_of_toNat_eq e))

/-- The resolver only reads. -/
theorem applyWrites_resolverReads (o : Operand) (s : State) (m : Memory) : applyWrites (resolverReads o s) m = m := by
  cases o <;> rfl

theorem filterMap_writeAddr_resolverReads (o : Operand) (s : State) :
    (resolverReads o s).filterMap Access.writeAddr = [] := by
  cases o <;> rfl

/-- What an instruction does to memory is its own accesses' writes, in order. -/
theorem instrEffect_mem (i : Instr) (s : State) : (instrEffect i s).mem = applyWrites (bodyAccesses i s) s.mem := by
  cases i
  case jsr w =>
    have hret : s.pc + 3#16 - 1#16 = s.pc + 2#16 := by bv_omega
    show ((s.advance 3).push16 (s.pc + 3#16 - 1#16)).mem = _
    rw [hret]
    rfl
  all_goals rfl

@[simp] theorem unknownOpcode_mem (s : State) (op : Byte) (addr : Word) :
    (s.unknownOpcode op addr).mem = s.mem := by
  cases hc : s.config.unknownOpcode with
  | strict => rw [State.unknownOpcode_strict hc, State.setRun_mem]
  | permissive => rw [State.unknownOpcode_permissive hc, State.emit_mem]

/-- Every step leaves the old memory after the writes of its list. -/
theorem mem_of_step {s t : State} (h : step s = .next t) : t.mem = applyWrites (stepAccesses s) s.mem := by
  obtain ⟨hr, hs⟩ | ⟨i, hr, hf, hs⟩ | ⟨op, hr, hf, hs⟩ := step_cases s
  · cases hs.symm.trans h
    rw [stepAccesses_stopped hr]
    rfl
  · cases (hs.trans (exec_eq_instrEffect i s)).symm.trans h
    rw [stepAccesses_fetched hr hf, instrEffect_mem, applyWrites, applyWrites_append, applyWrites_resolverReads]
  · cases hs.symm.trans h
    rw [stepAccesses_unknown hr hf, unknownOpcode_mem]
    rfl

/-! How many accesses. -/

/-- A resolver's reads and an instruction's own accesses are at most four together, its writes at most two (R425). -/
theorem length_accesses_le (i : Instr) (s : State) :
    (resolverReads i.operand s ++ bodyAccesses i s).length ≤ 4 ∧
      ((bodyAccesses i s).filterMap Access.writeAddr).length ≤ 2 := by
  cases i <;> exact ⟨Nat.le_of_ble_eq_true rfl, Nat.le_of_ble_eq_true rfl⟩

theorem length_stepAccesses_le (s : State) :
    (stepAccesses s).length ≤ 5 ∧ ((stepAccesses s).filterMap Access.writeAddr).length ≤ 2 := by
  obtain ⟨hr, -⟩ | ⟨i, hr, hf, -⟩ | ⟨op, hr, hf, -⟩ := step_cases s
  · rw [stepAccesses_stopped hr]
    decide
  · obtain ⟨hall, hwrites⟩ := length_accesses_le i s
    rw [stepAccesses_fetched hr hf, List.filterMap_cons_none rfl, List.filterMap_append,
      filterMap_writeAddr_resolverReads, List.nil_append]
    exact ⟨Nat.succ_le_succ hall, hwrites⟩
  · rw [stepAccesses_unknown hr hf]
    exact ⟨Nat.le_of_ble_eq_true rfl, Nat.zero_le 2⟩

/-! The reads. -/

/-- The operations that work on an operand byte, by one read at the effective address (R423). -/
def operandReaders : List Op := [.lda, .ldx, .ldy, .adc, .sbc, .and, .ora, .eor, .bit, .cmp, .cpx, .cpy]

/-- The addresses an operation reads, for the parameters of `opEffect`: acc tells the accumulator form, ea the
effective address. -/
def opReads (op : Op) (acc : Bool) (ea : Word) (sp : Byte) : List Word :=
  match op with
  | .lda | .ldx | .ldy | .adc | .sbc | .and | .ora | .eor | .bit | .cmp | .cpx | .cpy | .inc | .dec => [ea]
  | .asl | .lsr | .rol | .ror => if acc then [] else [ea]
  | .pla | .plp => [State.stackAddr (sp + 1#8)]
  | .rts => [State.stackAddr (sp + 1#8), State.stackAddr (sp + 2#8)]
  | .rti => [State.stackAddr (sp + 1#8), State.stackAddr (sp + 2#8), State.stackAddr (sp + 3#8)]
  | _ => []

/-- They are the reads among the instruction's own accesses. -/
theorem filterMap_readAddr_bodyAccesses (i : Instr) (s : State) :
    (bodyAccesses i s).filterMap Access.readAddr = opReads i.op (i.mode == .implied) (operandAddr i s) s.sp := by
  cases i <;> rfl

/-- The bytes of an instruction after its opcode are read first, by the resolver or, for an immediate byte, as the
operand itself. -/
theorem operandBytes_prefix_reads (i : Instr) (s : State) :
    ((List.range i.mode.operandWidth).map fun k => s.pc + BitVec.ofNat 16 (k + 1)) <+:
      (resolverReads i.operand s ++ bodyAccesses i s).filterMap Access.readAddr := by
  cases i <;> exact ⟨_, rfl⟩

theorem opReads_of_operandReader {op : Op} (h : op ∈ operandReaders) (acc : Bool) (ea : Word) (sp : Byte) :
    opReads op acc ea sp = [ea] := by
  cases op
  case lda | ldx | ldy | adc | sbc | and | ora | eor | bit | cmp | cpx | cpy => rfl
  all_goals exact absurd h (by decide)

/-- Only those operations use the operand byte. -/
theorem opEffect_byte_congr {op : Op} {m₁ m₂ : Byte} (h : op ∈ operandReaders → m₁ = m₂) (acc : Bool)
    (ea addr : Word) (s : State) : opEffect op acc m₁ ea addr s = opEffect op acc m₂ ea addr s := by
  cases op
  case lda | ldx | ldy | adc | sbc | and | ora | eor | bit | cmp | cpx | cpy => rw [h (by decide)]
  all_goals rfl

/-- A memory holds the state's own bytes at these addresses. -/
def State.ReadsAlike (s : State) (mem : Memory) (addrs : List Word) : Prop :=
  ∀ k ∈ addrs, mem.read k.toNat = s.read k

/-! What a step computes from memory, over a memory that holds the bytes it reads. -/

section
variable {s : State} {mem : Memory}

theorem readZp16_setMem {zp : Byte} (h : s.ReadsAlike mem [zext16 zp, zext16 (zp + 1#8)]) :
    (s.setMem mem).readZp16 zp = s.readZp16 zp :=
  congrArg₂ hiLo (h _ (by simp)) (h _ (by simp))

/-- The effective address depends on the pointer bytes alone. -/
theorem operandEa_setMem {o : Operand} (h : s.ReadsAlike mem ((resolverReads o s).filterMap Access.readAddr)) :
    operandEa (s.setMem mem) o = operandEa s o := by
  cases o
  case indirect ptr =>
    have hlow : mem.read ptr.toNat = s.read ptr := h _ (by simp [resolverReads, Access.readAddr])
    have hhigh : mem.read (indirectHighAddr ptr).toNat = s.read (indirectHighAddr ptr) :=
      h _ (by simp [resolverReads, Access.readAddr])
    exact congrArg some (congrArg₂ hiLo hhigh hlow)
  case indirectX b => exact congrArg some (readZp16_setMem (List.forall_mem_cons.mp h).2)
  case indirectY b =>
    exact congrArg (fun w => some (w + zext16 s.y)) (readZp16_setMem (List.forall_mem_cons.mp h).2)
  all_goals rfl

theorem resolverReads_setMem (o : Operand) : resolverReads o (s.setMem mem) = resolverReads o s := by
  cases o <;> rfl

/-- The operand byte is the one at the effective address, or an immediate byte, which is no byte of memory here. -/
theorem operandValue_setMem {o : Operand} (hea : operandEa (s.setMem mem) o = operandEa s o)
    (h : s.ReadsAlike mem (operandEa s o).toList) : operandValue (s.setMem mem) o = operandValue s o := by
  cases o
  case immediate | relative | indirect | implied | noneAddressing => rfl
  all_goals
    have haddr := congrArg (fun k : Word => mem.read k.toNat) (Option.some.inj hea)
    exact congrArg some (haddr.trans (h _ (List.mem_singleton.mpr rfl)))

theorem operandByte_setMem {i : Instr} (hea : operandEa (s.setMem mem) i.operand = operandEa s i.operand)
    (h : s.ReadsAlike mem [operandAddr i s]) : operandByte i (s.setMem mem) = operandByte i s := by
  have hvalue : operandValue (s.setMem mem) i.operand = operandValue s i.operand := by
    refine operandValue_setMem hea fun k hk => h k ?_
    rw [Option.mem_toList] at hk
    rw [operandAddr, hk]
    exact List.mem_cons_self
  rw [operandByte, hvalue, operandByte]

theorem eaModify_setMem {o : Operand} {f : Byte → Byte → Byte × Byte}
    (hea : operandEa (s.setMem mem) o = operandEa s o)
    (h : s.ReadsAlike mem ((eaModify o s f).filterMap Access.readAddr)) :
    eaModify o (s.setMem mem) f = eaModify o s f := by
  rw [eaModify, eaModify, hea]
  rw [eaModify] at h
  cases he : operandEa s o with
  | none => rfl
  | some ea =>
    rw [he] at h
    have hread : (s.setMem mem).read ea = s.read ea := h _ List.mem_cons_self
    simp [hread]

/-- An instruction's own accesses depend on the effective address and the byte a modify reads there. -/
theorem bodyAccesses_setMem {i : Instr} (hea : operandEa (s.setMem mem) i.operand = operandEa s i.operand)
    (h : s.ReadsAlike mem ((bodyAccesses i s).filterMap Access.readAddr)) :
    bodyAccesses i (s.setMem mem) = bodyAccesses i s := by
  cases hop : i.op
  case inc | dec | asl | lsr | rol | ror =>
    simp only [bodyAccesses, hop] at h ⊢
    exact eaModify_setMem hea h
  all_goals simp [bodyAccesses, hop, eaRead, eaWrite, hea]

theorem modifyMem_setMem {ea : Word} (h : s.ReadsAlike mem [ea]) (f : Byte → Byte → Byte × Byte) :
    (s.setMem mem).modifyMem f ea = (s.modifyMem f ea).setMem ((s.setMem mem).modifyMem f ea).mem := by
  have hread : (s.setMem mem).read ea = s.read ea := h ea List.mem_cons_self
  rw [State.modifyMem, hread]
  rfl

theorem pull_setMem (h : s.ReadsAlike mem [State.stackAddr (s.sp + 1#8)]) :
    (s.setMem mem).pull = (s.pull.1, s.pull.2.setMem mem) :=
  Prod.ext (h _ List.mem_cons_self) rfl

theorem pull16_setMem
    (h : s.ReadsAlike mem [State.stackAddr (s.sp + 1#8), State.stackAddr (s.sp + 2#8)]) :
    (s.setMem mem).pull16 = (s.pull16.1, s.pull16.2.setMem mem) := by
  rw [State.pull16_spec, State.pull16_spec]
  exact Prod.ext (congrArg₂ hiLo (h _ (by simp)) (h _ (by simp))) rfl

theorem opRti_setMem
    (h : s.ReadsAlike mem
      [State.stackAddr (s.sp + 1#8), State.stackAddr (s.sp + 2#8), State.stackAddr (s.sp + 3#8)]) :
    opRti (s.setMem mem) = (opRti s).setMem mem := by
  obtain ⟨hstatus, hret⟩ := List.forall_mem_cons.mp h
  have hlow : s.sp + 2#8 = s.sp + 1#8 + 1#8 := by bv_omega
  have hhigh : s.sp + 3#8 = s.sp + 1#8 + 2#8 := by bv_omega
  rw [hlow, hhigh] at hret
  rw [opRti, pull_setMem (List.forall_mem_singleton.mpr hstatus)]
  have hpull := pull16_setMem (s := s.pull.2.setP (pulledStatus s.pull.1 s.p)) hret
  exact congrArg (fun r : Word × State => r.2.setPc r.1) hpull

/-- Every field but the memory depends on the bytes the operation reads. -/
theorem opEffect_setMem {op : Op} {acc : Bool} {ea : Word} (h : s.ReadsAlike mem (opReads op acc ea s.sp))
    (m : Byte) (addr : Word) :
    opEffect op acc m ea addr (s.setMem mem) =
      (opEffect op acc m ea addr s).setMem (opEffect op acc m ea addr (s.setMem mem)).mem := by
  cases op
  case inc | dec => exact modifyMem_setMem h _
  case asl | lsr | rol | ror =>
    cases acc
    · exact modifyMem_setMem h _
    · rfl
  case pla => exact congrArg (fun r : Byte × State => (r.2.setA r.1).flagZN r.1) (pull_setMem h)
  case plp => exact congrArg (fun r : Byte × State => r.2.setP (pulledStatus r.1 s.p)) (pull_setMem h)
  case rts => exact congrArg (fun r : Word × State => r.2.setPc (r.1 + 1#16)) (pull16_setMem h)
  case rti => exact opRti_setMem h
  all_goals rfl

/-- A whole instruction depends on memory only through its resolver's and its own reads. -/
theorem instrEffect_setMem {i : Instr}
    (hresolver : s.ReadsAlike mem ((resolverReads i.operand s).filterMap Access.readAddr))
    (hbody : s.ReadsAlike mem ((bodyAccesses i s).filterMap Access.readAddr)) :
    instrEffect i (s.setMem mem) = (instrEffect i s).setMem (applyWrites (bodyAccesses i s) mem) := by
  have hea := operandEa_setMem hresolver
  have haddr : operandAddr i (s.setMem mem) = operandAddr i s := by rw [operandAddr, hea, operandAddr]
  have hmem : (instrEffect i (s.setMem mem)).mem = applyWrites (bodyAccesses i s) mem := by
    rw [instrEffect_mem, bodyAccesses_setMem hea hbody, State.setMem_mem]
  rw [filterMap_readAddr_bodyAccesses] at hbody
  have hbyte (hop : i.op ∈ operandReaders) : operandByte i (s.setMem mem) = operandByte i s :=
    operandByte_setMem hea (opReads_of_operandReader hop _ _ _ ▸ hbody)
  have hstate : instrEffect i (s.setMem mem) = (instrEffect i s).setMem (instrEffect i (s.setMem mem)).mem := by
    unfold instrEffect
    rw [haddr, opEffect_byte_congr hbyte]
    exact opEffect_setMem (s := s.advance i.length) hbody _ _
  rw [hstate, hmem]

/-- The same bytes at PC are the same instruction; an Unknown opcode byte is read alone. -/
theorem fetch_setMem (h : s.ReadsAlike mem ((stepAccesses s).filterMap Access.readAddr)) (hr : s.rs = .running) :
    (s.setMem mem).fetch = s.fetch := by
  cases hf : s.fetch with
  | ok i =>
    rw [stepAccesses_fetched hr hf] at h
    obtain ⟨hopcode, hoperand⟩ := List.forall_mem_cons.mp h
    refine State.fetch_eq_ok_iff.mpr fun k hk => Eq.trans ?_ (State.fetch_eq_ok_iff.mp hf k hk)
    cases k with
    | zero =>
      rw [BitVec.add_zero, BitVec.add_zero]
      exact hopcode
    | succ k =>
      refine hoperand _ ((operandBytes_prefix_reads i s).subset (List.mem_map_of_mem (List.mem_range.mpr ?_)))
      rw [length_encode, Instr.length] at hk
      omega
  | error op =>
    rw [stepAccesses_unknown hr hf] at h
    have hopcode : (s.setMem mem).read s.pc = s.read s.pc := h _ List.mem_cons_self
    obtain ⟨hop, hunknown⟩ := fetch_error hf
    exact State.fetch_eq_error_iff.mpr ⟨hop.trans hopcode.symm, hunknown⟩

theorem unknownOpcode_setMem (op : Byte) (addr : Word) :
    (s.setMem mem).unknownOpcode op addr = (s.unknownOpcode op addr).setMem mem := by
  cases hc : s.config.unknownOpcode with
  | strict => rw [State.unknownOpcode_strict hc, State.unknownOpcode_strict (s := s.setMem mem) hc]; rfl
  | permissive => rw [State.unknownOpcode_permissive hc, State.unknownOpcode_permissive (s := s.setMem mem) hc]; rfl

/-- A step over another memory with the same bytes where the step reads (R405). -/
theorem step_setMem (h : s.ReadsAlike mem ((stepAccesses s).filterMap Access.readAddr)) :
    ∃ t, step s = .next t ∧ stepAccesses (s.setMem mem) = stepAccesses s ∧
      step (s.setMem mem) = .next (t.setMem (applyWrites (stepAccesses s) mem)) := by
  obtain ⟨hr, hs⟩ | ⟨i, hr, hf, hs⟩ | ⟨op, hr, hf, hs⟩ := step_cases s
  · have hr' : (s.setMem mem).rs ≠ .running := hr
    rw [stepAccesses_stopped hr, stepAccesses_stopped hr']
    exact ⟨s, hs, rfl, step_stopped hr'⟩
  · have hf' := (fetch_setMem h hr).trans hf
    rw [stepAccesses_fetched hr hf] at h ⊢
    obtain ⟨-, hreads⟩ := List.forall_mem_cons.mp h
    rw [List.filterMap_append] at hreads
    obtain ⟨hresolver, hbody⟩ := List.forall_mem_append.mp hreads
    have haccesses : stepAccesses (s.setMem mem) = .read s.pc :: (resolverReads i.operand s ++ bodyAccesses i s) := by
      rw [stepAccesses_fetched (s := s.setMem mem) hr hf', resolverReads_setMem,
        bodyAccesses_setMem (operandEa_setMem hresolver) hbody, State.setMem_pc]
    refine ⟨_, hs.trans (exec_eq_instrEffect i s), haccesses, ?_⟩
    rw [step_fetched (s := s.setMem mem) hr hf', exec_eq_instrEffect, instrEffect_setMem hresolver hbody, applyWrites,
      applyWrites_append, applyWrites_resolverReads]
  · have hf' := (fetch_setMem h hr).trans hf
    rw [stepAccesses_unknown hr hf, stepAccesses_unknown (s := s.setMem mem) hr hf']
    refine ⟨_, hs, rfl, (step_unknown (s := s.setMem mem) hr hf').trans ?_⟩
    exact congrArg Host.Outcome.next (unknownOpcode_setMem (s := s.advance 1) op s.pc)

end

end Sys2Proof.Machine
end

section
/-! PROOFS. The statements of 40_execution_and_addressing.md. -/

open Sys2Proof Sys2Proof.Machine

/-- Settles O7: the decoder and the fetch read the same instruction from the three bytes at PC. -/
theorem stepRunsTheDecodedInstruction : Obligations.StepRunsTheDecodedInstruction :=
  fun _ _ rest hr h => step_fetched hr (State.fetch_eq_ok_iff_decode.mpr ⟨rest, h⟩)

/-- Settles O8: the instruction whose encoding lies at PC is the one fetched. -/
theorem stepRunsTheInstructionEncodedAtPc : Obligations.StepRunsTheInstructionEncodedAtPc :=
  fun _ _ hr h => step_fetched hr (State.fetch_eq_ok_iff.mpr h)

/-- Settles O9: a step is idle outside Running, and the host's calls write memory or start the core afresh. -/
theorem stepOutsideRunningDoesNothing : Obligations.StepOutsideRunningDoesNothing := by
  refine ⟨fun s h => ⟨step_stopped h, beq_false_of_ne h⟩, fun _ => rfl, fun _ => rfl, fun s t program h => ?load,
    fun _ _ _ => rfl, fun _ _ _ => rfl⟩
  case load =>
    rcases le_or_gt program.length 0x8000 with hle | hlt
    · cases (State.load_of_length_le hle s).symm.trans h
      exact State.writeBytes_rs program s loadBase
    · cases (State.load_of_lt_length hlt s).symm.trans h

/-- Settles O13: the resolver's advance is the last write to PC of an operation that is no transfer. -/
theorem pcEndsAfterAnInstructionThatIsNoTransfer : Obligations.PcEndsAfterAnInstructionThatIsNoTransfer := by
  intro i s h
  refine ⟨_, exec_eq_instrEffect i s, ?pc, length_eq_one_or_two_or_three i⟩
  case pc =>
    rw [instrEffect, opEffect_pc h, State.advance_pc, BitVec.toNat_add, BitVec.toNat_ofNat, Nat.add_mod_mod]

/-- Settles O42: each mode's address by its law in numbers. -/
theorem effectiveAddressesOfEveryMode : Obligations.EffectiveAddressesOfEveryMode := by
  intro s b w byteAt zp ea
  refine ⟨congrArg some (toNat_eaImmediate s), congrArg some (toNat_zext16 b), congrArg some (toNat_eaZeroPageX b s),
    congrArg some (toNat_eaZeroPageY b s), rfl, congrArg some (toNat_eaAbsoluteX w s),
    congrArg some (toNat_eaAbsoluteY w s), congrArg some ?relative, congrArg some ?indirectX,
    congrArg some ?indirectY, congrArg some (toNat_eaIndirect w s), rfl, rfl⟩
  case relative =>
    have htarget := toNat_eaRelative b (s.pc + 2#16)
    rw [BitVec.toNat_add] at htarget
    exact htarget.trans (by simp)
  case indirectX =>
    have hz : (b + s.x).toNat = (b.toNat + s.x.toNat) % 256 := BitVec.toNat_add ..
    exact (toNat_readZp16 s (b + s.x)).trans (by rw [hz])
  case indirectY => exact (toNat_eaIndirectY b s).trans (by rw [toNat_readZp16])

/-- Settles O43: the address after ptr, except where ptr is the last byte of its page. -/
theorem indirectPointerWrapsWithinItsPage : Obligations.IndirectPointerWrapsWithinItsPage := by
  intro s ptr
  refine ⟨fun h => congrArg some ?within, fun h => congrArg some ?wraps⟩
  case within => rw [eaIndirect, indirectHighAddr_of_ne h, State.read16]
  case wraps => rw [eaIndirect, indirectHighAddr_of_eq h]

/-- Settles O49: the two flags and the frame of `UpdateZN`, and the operations that end with it. -/
theorem updateZNWritesZeroAndNegativeOnly : Obligations.UpdateZNWritesZeroAndNegativeOnly := by
  refine ⟨fun v p => ⟨?zero, ?negative, updateZN_and_0x7D v p⟩, fun i h s => ?result⟩
  case zero => rw [get_updateZN]; rfl
  case negative => simp [and_0x80_ne_zero_iff]
  case result =>
    obtain ⟨v, hp⟩ := exists_opEffect_p_eq_updateZN h (i.mode == .implied) (operandByte i s) (operandAddr i s) s.pc
      (s.advance i.length)
    exact ⟨v, _, exec_eq_instrEffect i s, hp⟩

/-- Settles O51: the memory after each of the three ways a step can go, and what a list of writes leaves alone. -/
theorem stepChangesMemoryOnlyByItsListedWrites : Obligations.StepChangesMemoryOnlyByItsListedWrites := by
  intro s
  obtain ⟨t, ht⟩ := exists_step_eq_next s
  have hmem := mem_of_step ht
  refine ⟨t, ht, hmem, fun k hk => ?frame, length_stepAccesses_le s⟩
  case frame => rw [State.read, hmem, read_applyWrites_of_not_mem hk, State.read]

/-- Settles O52: fetch, resolver and operation each depend on their listed reads, and the list gives the writes. -/
theorem stepDependsOnlyOnTheBytesItReads : Obligations.StepDependsOnlyOnTheBytesItReads :=
  fun _ _ h => step_setMem h

/-- Settles O60: the next step of a run, induction on the readings for every run, and `load` before it. -/
theorem runReturnsAtTheEndOrTheStopSignalAndMayResume :
    Obligations.RunReturnsAtTheEndOrTheStopSignalAndMayResume := by
  refine ⟨fun _ => rfl, fun stop later s => ?step, exists_run_eq_next, fun _ later _ _ h => run_append h later,
    fun program signal s => ⟨fun h => ?accepted, fun h => ?refused⟩⟩
  case step =>
    obtain ⟨t, ht⟩ := exists_step_eq_next s
    exact ⟨t, ht, run_cons ht stop later⟩
  case accepted => exact ⟨_, State.load_of_length_le h s, by rw [loadAndRun, State.load_of_length_le h]⟩
  case refused => rw [loadAndRun, State.load_of_lt_length h]

end

section
/-! PROOF LAYER. The encodings of an operation read off the opcode table, and the operand of an operation that reads a
byte or works at an effective address. -/

namespace Sys2Proof.Machine

/-- The operation of the table's entry for an opcode byte, whatever bytes follow it; none for Unknown. -/
def tableOp (b : Byte) : Option Op := ((opcodeTable b).instr 0#8 0#8).map Instr.op

theorem tableOp_opcode (i : Instr) : tableOp i.opcode = some i.op := (opcodeTable_opcode i 0#8 0#8).2

theorem opcodeTable_mode_opcode (i : Instr) : (opcodeTable i.opcode).mode = some i.mode :=
  (opcodeTable_opcode i 0#8 0#8).1

/-- The opcode bytes of an operation, each with its mode, as the map of R305 has them. -/
def encodingsOf (op : Op) : List (Byte × Mode) :=
  (List.range 256).filterMap fun n =>
    if tableOp (BitVec.ofNat 8 n) = some op then (opcodeTable (BitVec.ofNat 8 n)).mode.map (BitVec.ofNat 8 n, ·)
    else none

theorem mem_encodingsOf_iff {op : Op} {b : Byte} {m : Mode} :
    (b, m) ∈ encodingsOf op ↔ tableOp b = some op ∧ (opcodeTable b).mode = some m := by
  simp only [encodingsOf, List.mem_filterMap, List.mem_range, Option.ite_none_right_eq_some, Option.map_eq_some_iff,
    Prod.mk.injEq]
  constructor
  · rintro ⟨n, -, hop, _, hmode, rfl, rfl⟩
    exact ⟨hop, hmode⟩
  · rintro ⟨hop, hmode⟩
    have hb : BitVec.ofNat 8 b.toNat = b := by simp
    exact ⟨b.toNat, b.isLt, by rwa [hb], m, by rwa [hb], hb, rfl⟩

/-- The per-operation rows of R306 are those of R305's map, in another order. -/
theorem hasEncodings_of_perm {op : Op} {rows : List (Byte × Mode)} (h : (encodingsOf op).Perm rows) :
    HasEncodings op rows := by
  intro i
  rw [← h.mem_iff, mem_encodingsOf_iff, tableOp_opcode, opcodeTable_mode_opcode]
  simp

/-- What an instruction of a known operation does. -/
theorem exec_of_op {i : Instr} {op : Op} (h : i.op = op) (s : State) :
    exec i s = .next (opEffect op (i.mode == .implied) (operandByte i s) (operandAddr i s) s.pc (s.advance i.length)) :=
  h ▸ exec_eq_instrEffect i s

/-- Every mode of an operation that works on an operand byte has one (R423). -/
theorem operandValue_of_op {i : Instr} {op : Op} (h : i.op = op) (hop : op ∈ operandReaders) (s : State) :
    operandValue s i.operand = some (operandByte i s) := by
  have hmodes : ∀ reader ∈ operandReaders, ∀ mode ∈ reader.modes,
      mode ∉ [Mode.relative, .indirect, .implied, .noneAddressing] := by decide
  exact operandValue_eq_operandByte (hmodes op hop _ (h ▸ mode_mem_modes i)) s

/-- Outside the two operand-less modes, `Resolve(mode)` answers an effective address (R410). -/
theorem operandEa_eq_operandAddr {i : Instr} (h : i.mode ∉ [.implied, .noneAddressing]) (s : State) :
    operandEa s i.operand = some (operandAddr i s) := by
  rw [Instr.mode] at h
  rw [operandAddr]
  cases ho : i.operand <;> rw [ho] at h
  case implied | noneAddressing => simp [Operand.mode] at h
  all_goals rfl

/-- An operation none of whose modes is operand-less works at an effective address. -/
theorem operandEa_of_op {i : Instr} {op : Op} (h : i.op = op)
    (hmodes : ∀ mode ∈ op.modes, mode ∉ [.implied, .noneAddressing]) (s : State) :
    operandEa s i.operand = some (operandAddr i s) :=
  operandEa_eq_operandAddr (hmodes _ (h ▸ mode_mem_modes i)) s

/-- After the resolver, one byte store at the effective address and nothing else. -/
theorem exists_storedByte_of_exec {i : Instr} {s : State} {ea : Word} {v : Byte} (hea : operandEa s i.operand = some ea)
    (hexec : exec i s = .next ((s.advance i.length).write ea v)) :
    ∃ ea t, operandEa s i.operand = some ea ∧ exec i s = .next t ∧ StoredByte s t ea v ∧
      t = { s with mem := t.mem, pc := nextPc i s } :=
  ⟨ea, _, hea, hexec, fun k => (s.advance i.length).read_write ea k v, rfl⟩

end Sys2Proof.Machine
end

section
/-! PROOFS. The statements of 41_load_store.md. -/

open Sys2Proof Sys2Proof.Machine

/-- Settles O14: the encodings from the opcode table, then each load's effect on its operand byte. -/
theorem loadsPutTheOperandInTheirRegister : Obligations.LoadsPutTheOperandInTheirRegister := by
  refine ⟨hasEncodings_of_perm (by decide), hasEncodings_of_perm (by decide), hasEncodings_of_perm (by decide),
    fun i s => ⟨fun h => ?lda, fun h => ?ldx, fun h => ?ldy⟩⟩
  all_goals exact ⟨operandByte i s, operandValue_of_op h (by decide) s, exec_of_op h s⟩

/-- Settles O15: the encodings from the opcode table, then each store as one byte write after the resolver. -/
theorem storesWriteTheirRegisterAtTheEffectiveAddress :
    Obligations.StoresWriteTheirRegisterAtTheEffectiveAddress := by
  refine ⟨hasEncodings_of_perm (by decide), hasEncodings_of_perm (by decide), hasEncodings_of_perm (by decide),
    fun i s => ⟨fun h => ?sta, fun h => ?stx, fun h => ?sty⟩⟩
  all_goals exact exists_storedByte_of_exec (operandEa_of_op h (by decide) s) (exec_of_op h s)

end

section
/-! PROOFS. The statements of 42_transfer.md. -/

open Sys2Proof Sys2Proof.Machine

/-- Settles O16: each transfer's encoding is its opcode byte, and its next state is its operation's effect after PC
moves past that byte. -/
theorem transfersCopyBetweenRegisters : Obligations.TransfersCopyBetweenRegisters := by
  intro s
  refine ⟨?tax, ?tay, ?txa, ?tya, ?tsx, ?txs⟩
  all_goals exact ⟨rfl, exec_eq_instrEffect _ s⟩

end

section
/-! PROOF LAYER. A byte as two digits and as a signed number, and binary addition and subtraction in numbers
(43_arithmetic.md R481, R482). -/

namespace Sys2Proof

theorem toNat_and_0x0F (v : Byte) : (v &&& 0x0F#8).toNat = v.toNat % 16 := by
  rw [BitVec.toNat_and]
  exact Nat.and_two_pow_sub_one_eq_mod v.toNat 4

theorem toNat_and_0xF0 (v : Byte) : (v &&& 0xF0#8).toNat = v.toNat / 16 * 16 := by
  have hshift : v &&& 0xF0#8 = (v >>> 4) <<< 4 := by
    refine BitVec.eq_of_getLsbD_eq fun k hk => ?_
    interval_cases k <;> simp
  have := v.isLt
  rw [hshift, BitVec.toNat_shiftLeft, BitVec.toNat_ushiftRight, Nat.shiftRight_eq_div_pow, Nat.shiftLeft_eq]
  omega

theorem toNat_xor_0xFF (v : Byte) : (v ^^^ 0xFF#8).toNat = 255 - v.toNat := by
  rw [show 0xFF#8 = BitVec.allOnes 8 from rfl, BitVec.xor_allOnes, BitVec.toNat_not]

theorem getLsbD_seven (v : Byte) : v.getLsbD 7 = decide (128 ≤ v.toNat) := BitVec.msb_eq_decide v

theorem getLsbD_seven_wrap8 (t : Int) : (wrap8 t).getLsbD 7 = decide (t % 256 ≥ 128) := by
  rw [getLsbD_seven, wrap8, BitVec.toNat_ofInt, decide_eq_decide]
  omega

theorem toNat_wrap8 (t : Int) : ((wrap8 t).toNat : Int) = t % 256 := by
  rw [wrap8, BitVec.toNat_ofInt]
  omega

theorem signed8_eq (v : Byte) : signed8 v = if v.toNat < 128 then (v.toNat : Int) else (v.toNat : Int) - 256 := by
  rw [signed8, BitVec.toInt_eq_toNat_cond]
  omega

theorem signed8_xor_0xFF (v : Byte) : signed8 (v ^^^ 0xFF#8) = -signed8 v - 1 := by
  have := v.isLt
  rw [signed8_eq, signed8_eq, toNat_xor_0xFF]
  omega

namespace Machine

theorem carryIn_le_one (p : Byte) : carryIn p ≤ 1 := Bool.toNat_le _

/-- Two addends of one sign and a result of the other: the signed sum does not fit a byte. -/
theorem getLsbD_seven_signs_differ_iff (a b : Byte) {c : Nat} (hc : c ≤ 1) {r : Byte}
    (hr : r.toNat = (a.toNat + b.toNat + c) % 256) :
    ((a ^^^ r) &&& (b ^^^ r)).getLsbD 7 = true ↔
      signed8 a + signed8 b + (c : Int) < -128 ∨ signed8 a + signed8 b + (c : Int) > 127 := by
  have := a.isLt
  have := b.isLt
  rw [BitVec.getLsbD_and, BitVec.getLsbD_xor, BitVec.getLsbD_xor, Bool.and_eq_true, bne_iff_ne, bne_iff_ne]
  simp only [getLsbD_seven, hr, ne_eq, decide_eq_decide, signed8_eq]
  omega

theorem toNat_addBinary_fst (a b p : Byte) :
    (addBinary a b p).1.toNat = (a.toNat + b.toNat + carryIn p) % 256 := BitVec.toNat_ofNat ..

/-- V by the bits of the operands and the result (R482). -/
theorem overflow_addBinary (a b p : Byte) :
    Flag.overflow.get (addBinary a b p).2 =
      decide (((a ^^^ (addBinary a b p).1) &&& (b ^^^ (addBinary a b p).1)) &&& 0x80#8 ≠ 0#8) := by
  rw [get_addBinary, Bool.eq_iff_iff, decide_eq_true_eq]
  exact bne_iff_ne

/-- V by the signed sum. -/
theorem overflow_addBinary_signed (a b p : Byte) :
    Flag.overflow.get (addBinary a b p).2 =
      decide (signed8 a + signed8 b + (carryIn p : Int) < -128 ∨ signed8 a + signed8 b + (carryIn p : Int) > 127) := by
  rw [overflow_addBinary, decide_eq_decide, and_0x80_ne_zero_iff]
  exact getLsbD_seven_signs_differ_iff a b (carryIn_le_one p) (toNat_addBinary_fst a b p)

end Machine

end Sys2Proof
end

section
/-! PROOF LAYER. Decimal addition and subtraction in digits (43_arithmetic.md R483, R484), and on packed BCD. -/

namespace Sys2Proof.Machine

/-- The low digits' sum l after the decimal adjustment of R483. -/
def adjustLow (l : Nat) : Nat := if l ≥ 10 then (l + 6) % 16 + 16 else l

/-- The sum s of both digits after the decimal adjustment of R483. -/
def adjustHigh (s : Nat) : Nat := if s ≥ 0xA0 then s + 0x60 else s

/-- The sum of the digits of a and m and a carry c, as R483 adjusts it. -/
def digitSum (a m c : Nat) : Nat := adjustHigh (a / 16 * 16 + m / 16 * 16 + adjustLow (a % 16 + m % 16 + c))

/-- The low digits' difference d after the decimal adjustment of R484. -/
def adjustLowBorrow (d : Int) : Int := if d < 0 then (d - 6) % 16 - 16 else d

/-- The difference s of both digits after the decimal adjustment of R484. -/
def adjustHighBorrow (s : Int) : Int := if s < 0 then s - 0x60 else s

/-- The difference of the digits of a and m with a carry c, as R484 adjusts it. -/
def digitDifference (a m c : Nat) : Int :=
  adjustHighBorrow (((a / 16 * 16 : Nat) : Int) - ((m / 16 * 16 : Nat) : Int) +
    adjustLowBorrow (((a % 16 : Nat) : Int) - ((m % 16 : Nat) : Int) + (c : Int) - 1))

/-- The value of a byte's high digit, in place, as a signed number. -/
def signedHighDigit (v : Byte) : Int :=
  if v.toNat < 128 then ((v.toNat / 16 * 16 : Nat) : Int) else ((v.toNat / 16 * 16 : Nat) : Int) - 256

/-- The sum whose sign and overflow are N and V of R483: the high digits signed, the low digits adjusted. -/
def signedDigitSum (a m : Byte) (c : Nat) : Int :=
  signedHighDigit a + signedHighDigit m + (adjustLow (a.toNat % 16 + m.toNat % 16 + c) : Int)

theorem signed8_and_0xF0 (v : Byte) : signed8 (v &&& 0xF0#8) = signedHighDigit v := by
  rw [signed8_eq, toNat_and_0xF0, signedHighDigit]
  omega

theorem addDecimalLow_eq (a m : Byte) (c : Nat) :
    addDecimalLow a m c = adjustLow (a.toNat % 16 + m.toNat % 16 + c) := by
  simp only [addDecimalLow, adjustLow, toNat_and_0x0F]
  rw [show 0x0F = 2 ^ 4 - 1 from rfl, Nat.and_two_pow_sub_one_eq_mod]

theorem subDecimalLow_eq (a m : Byte) (c : Nat) :
    subDecimalLow a m c =
      adjustLowBorrow (((a.toNat % 16 : Nat) : Int) - ((m.toNat % 16 : Nat) : Int) + (c : Int) - 1) := by
  simp only [subDecimalLow, adjustLowBorrow, toNat_and_0x0F]

theorem addDecimal_fst (a m p : Byte) :
    (addDecimal a m p).1 = BitVec.ofNat 8 (digitSum a.toNat m.toNat (carryIn p)) := by
  simp only [addDecimal, digitSum, adjustHigh, addDecimalLow_eq, toNat_and_0xF0]

theorem subDecimal_fst (a m p : Byte) :
    (subDecimal a m p).1 = wrap8 (digitDifference a.toNat m.toNat (carryIn p)) := by
  simp only [subDecimal, digitDifference, adjustHighBorrow, subDecimalLow_eq, toNat_and_0xF0]

/-- `AddDecimal` flag by flag. -/
theorem get_addDecimal (f : Flag) (a m p : Byte) :
    f.get (addDecimal a m p).2 =
      if f = .zero then decide ((a.toNat + m.toNat + carryIn p) % 256 = 0)
      else if f = .carry then decide (digitSum a.toNat m.toNat (carryIn p) ≥ 0x100)
      else if f = .overflow then
        decide (signedDigitSum a m (carryIn p) < -128 ∨ signedDigitSum a m (carryIn p) > 127)
      else if f = .negative then decide (signedDigitSum a m (carryIn p) % 256 ≥ 128)
      else f.get p := by
  have hzero : (BitVec.ofNat 8 (a.toNat + m.toNat + carryIn p) == 0#8) =
      decide ((a.toNat + m.toNat + carryIn p) % 256 = 0) := by
    rw [beq_eq_decide, decide_eq_decide, ← BitVec.toNat_inj, BitVec.toNat_ofNat]
    rfl
  simp only [addDecimal, Flag.get_put, hzero, getLsbD_seven_wrap8, signed8_and_0xF0, toNat_and_0xF0, addDecimalLow_eq]
  rfl

/-- `SubDecimal` has the whole status of the binary subtraction (R484). -/
theorem subDecimal_snd (a m p : Byte) : (subDecimal a m p).2 = (addBinary a (m ^^^ 0xFF#8) p).2 :=
  Flag.ext_get fun f => get_subDecimal f a m p

theorem toNat_bcd {n : Nat} (h : n < 100) : (bcd n).toNat = n / 10 * 16 + n % 10 := by
  rw [bcd, BitVec.toNat_ofNat]
  omega

/-- The sum of two decimal digits and a carry becomes a decimal digit and a carry to the high digit. -/
theorem adjustLow_of_le {l : Nat} (h : l ≤ 19) : adjustLow l = l / 10 * 16 + l % 10 := by
  rw [adjustLow]
  split <;> omega

/-- High digits with a sum h, over a decimal low digit, become a decimal digit and a carry out. -/
theorem adjustHigh_of_le {h l : Nat} (hh : h ≤ 19) (hl : l ≤ 9) :
    adjustHigh (h * 16 + l) = h / 10 * 256 + h % 10 * 16 + l := by
  rw [adjustHigh]
  split <;> omega

/-- The digit sum of packed BCD is the packed BCD of the sum modulo 100, its hundred as the carry out. -/
theorem digitSum_bcd {x y c n : Nat} (hx : x < 100) (hy : y < 100) (hc : c ≤ 1) (hn : n = x + y + c) :
    digitSum (bcd x).toNat (bcd y).toNat c = n / 100 * 256 + (bcd (n % 100)).toNat := by
  have hlow : adjustLow ((x / 10 * 16 + x % 10) % 16 + (y / 10 * 16 + y % 10) % 16 + c) =
      (x % 10 + y % 10 + c) / 10 * 16 + n % 10 := by
    rw [adjustLow_of_le (by omega)]
    omega
  have hhigh : (x / 10 * 16 + x % 10) / 16 * 16 + (y / 10 * 16 + y % 10) / 16 * 16 +
      ((x % 10 + y % 10 + c) / 10 * 16 + n % 10) = n / 10 * 16 + n % 10 := by
    omega
  rw [toNat_bcd hx, toNat_bcd hy, toNat_bcd (Nat.mod_lt n (by decide)), digitSum, hlow, hhigh,
    adjustHigh_of_le (by omega) (by omega)]
  omega

/-- The difference of two decimal digits less a borrow becomes a decimal digit and a borrow from the high digit. -/
theorem adjustLowBorrow_of_le {d : Int} (hlo : -10 ≤ d) (hhi : d ≤ 9) :
    adjustLowBorrow d = d / 10 * 16 + d % 10 := by
  rw [adjustLowBorrow]
  split <;> omega

/-- High digits with a difference h, over a decimal low digit, become a decimal digit and a borrow. -/
theorem adjustHighBorrow_of_le {h l : Int} (hlo : -10 ≤ h) (hhi : h ≤ 9) (hl0 : 0 ≤ l) (hl : l ≤ 9) :
    adjustHighBorrow (h * 16 + l) = h / 10 * 256 + h % 10 * 16 + l := by
  rw [adjustHighBorrow]
  split <;> omega

/-- The digit difference of packed BCD is the packed BCD of the difference modulo 100, less its borrow. -/
theorem digitDifference_bcd {x y c n : Nat} (hx : x < 100) (hy : y < 100) (hc : c ≤ 1)
    (hn : n = x + 100 - y - (1 - c)) :
    digitDifference (bcd x).toNat (bcd y).toNat c = ((n / 100 * 256 + (bcd (n % 100)).toNat : Nat) : Int) - 256 := by
  have hlow : adjustLowBorrow (((x / 10 * 16 + x % 10) % 16 : Nat) - ((y / 10 * 16 + y % 10) % 16 : Nat) + c - 1) =
      ((x % 10 : Nat) - (y % 10 : Nat) + (c : Int) - 1) / 10 * 16 + (n % 10 : Nat) := by
    rw [adjustLowBorrow_of_le (by omega) (by omega)]
    omega
  have hhigh : ((x / 10 * 16 + x % 10) / 16 * 16 : Nat) - ((y / 10 * 16 + y % 10) / 16 * 16 : Nat) +
      (((x % 10 : Nat) - (y % 10 : Nat) + (c : Int) - 1) / 10 * 16 + (n % 10 : Nat)) =
      ((n / 10 : Nat) - 10 : Int) * 16 + (n % 10 : Nat) := by
    omega
  rw [toNat_bcd hx, toNat_bcd hy, toNat_bcd (Nat.mod_lt n (by decide)), digitDifference, hlow, hhigh,
    adjustHighBorrow_of_le (by omega) (by omega) (by omega) (by omega)]
  omega

theorem opAdc_eq (m : Byte) (s : State) :
    opAdc m s = s.setAP (if Flag.decimalMode.get s.p = true ∧ s.config.decimal = .nmos
      then addDecimal s.a m s.p else addBinary s.a m s.p) := by
  simp only [opAdc, State.decimal_iff]

theorem opSbc_eq (m : Byte) (s : State) :
    opSbc m s = s.setAP (if Flag.decimalMode.get s.p = true ∧ s.config.decimal = .nmos
      then subDecimal s.a m s.p else addBinary s.a (m ^^^ 0xFF#8) s.p) := by
  simp only [opSbc, State.decimal_iff, show m ^^^ 0xFF#8 = ~~~m from BitVec.xor_allOnes]

end Sys2Proof.Machine
end

section
/-! PROOFS. The statements of 43_arithmetic.md. -/

open Sys2Proof Sys2Proof.Machine

/-- Settles O18: `AddBinary` flag by flag, V by the signs of the operands and the result. -/
theorem addBinaryIsTheSumWithCarryAndSignedOverflow :
    Obligations.AddBinaryIsTheSumWithCarryAndSignedOverflow :=
  fun a b p => ⟨toNat_addBinary_fst a b p, get_addBinary .carry a b p, overflow_addBinary a b p,
    overflow_addBinary_signed a b p, get_addBinary .zero a b p, get_addBinary .negative a b p,
    fun f => get_addBinary_of_other f a b p⟩

/-- Settles O23: O18 with the complement of m, whose value is 255 - m and whose signed value is -m - 1. -/
theorem binarySbcIsTheDifferenceWithBorrow : Obligations.BinarySbcIsTheDifferenceWithBorrow := by
  intro a m p b r
  have hb : b = 1 - ((Flag.carry.get p).toNat : Int) := rfl
  have hm := m.isLt
  obtain ⟨hA : r.1.toNat = _, hC, -, hV, -⟩ := addBinaryIsTheSumWithCarryAndSignedOverflow a (m ^^^ 0xFF#8) p
  rw [toNat_xor_0xFF] at hA hC
  rw [signed8_xor_0xFF] at hV
  refine ⟨?difference, hC.trans (decide_eq_decide.mpr ?borrow), hV.trans (decide_eq_decide.mpr ?overflow)⟩
  all_goals omega

/-- Settles O19: the masks and sign extensions of `AddDecimal` as digits, flag by flag. -/
theorem addDecimalIsTheNmosDigitSum : Obligations.AddDecimalIsTheNmosDigitSum :=
  fun a m p => ⟨(congrArg BitVec.toNat (addDecimal_fst a m p)).trans (BitVec.toNat_ofNat ..),
    get_addDecimal .carry a m p, get_addDecimal .negative a m p, get_addDecimal .overflow a m p,
    get_addDecimal .zero a m p, fun f => get_addDecimal_of_other f a m p⟩

/-- Settles O20: the masks of `SubDecimal` as digits, and its status as that of the binary subtraction. -/
theorem subDecimalIsTheNmosDigitDifferenceWithBinaryFlags :
    Obligations.SubDecimalIsTheNmosDigitDifferenceWithBinaryFlags :=
  fun a m p => ⟨(congrArg (fun v : Byte => (v.toNat : Int)) (subDecimal_fst a m p)).trans (toNat_wrap8 _),
    subDecimal_snd a m p⟩

/-- Settles O21: the digit sum of the packed BCD of x and y is the packed BCD of their sum. -/
theorem addDecimalOfValidBcdIsDecimalAddition : Obligations.AddDecimalOfValidBcdIsDecimalAddition := by
  intro x y p hx hy n
  have hsum : digitSum (bcd x).toNat (bcd y).toNat (carryIn p) = n / 100 * 256 + (bcd (n % 100)).toNat :=
    digitSum_bcd hx hy (carryIn_le_one p) rfl
  have hlt : (bcd (n % 100)).toNat < 256 := (bcd (n % 100)).isLt
  refine ⟨BitVec.eq_of_toNat_eq ?sum, (get_addDecimal .carry ..).trans (decide_eq_decide.mpr ?carry)⟩
  case sum =>
    rw [addDecimal_fst, BitVec.toNat_ofNat, hsum]
    omega
  case carry =>
    rw [hsum]
    omega

/-- Settles O22: the digit difference of the packed BCD of x and y is the packed BCD of their difference, and the carry
is that of O23. -/
theorem subDecimalOfValidBcdIsDecimalSubtraction : Obligations.SubDecimalOfValidBcdIsDecimalSubtraction := by
  intro x y p hx hy b
  refine ⟨BitVec.eq_of_toNat_eq ?difference, ?carry⟩
  case difference =>
    obtain ⟨n, hn⟩ : ∃ n, n = x + 100 - y - b := ⟨_, rfl⟩
    have hA := toNat_wrap8 (digitDifference (bcd x).toNat (bcd y).toNat (carryIn p))
    rw [← subDecimal_fst, digitDifference_bcd hx hy (carryIn_le_one p) hn] at hA
    have hlt : (bcd (n % 100)).toNat < 256 := (bcd (n % 100)).isLt
    rw [← hn]
    omega
  case carry =>
    have hc : (Flag.carry.get p).toNat ≤ 1 := carryIn_le_one p
    have hb : b = 1 - (Flag.carry.get p).toNat := rfl
    obtain ⟨-, hC, -⟩ := binarySbcIsTheDifferenceWithBorrow (bcd x) (bcd y) p
    rw [← subDecimal_snd, toNat_bcd hx, toNat_bcd hy] at hC
    refine hC.trans (decide_eq_decide.mpr ?_)
    omega

/-- Settles O17: the encodings from the opcode table, the two effects by the decimal switch, and the five instructions
that do not look at it. -/
theorem adcAndSbcUseBinaryOrDecimalArithmetic : Obligations.AdcAndSbcUseBinaryOrDecimalArithmetic := by
  refine ⟨hasEncodings_of_perm (by decide), hasEncodings_of_perm (by decide),
    fun i s => ⟨fun h => ⟨operandByte i s, operandValue_of_op h (by decide) s, ?adc⟩,
      fun h => ⟨operandByte i s, operandValue_of_op h (by decide) s, ?sbc⟩⟩, fun i s c h => ?config⟩
  case adc => exact (exec_of_op h s).trans (congrArg Host.Outcome.next (opAdc_eq _ _))
  case sbc => exact (exec_of_op h s).trans (congrArg Host.Outcome.next (opSbc_eq _ _))
  case config =>
    simp only [List.mem_cons, List.not_mem_nil, or_false] at h
    rcases h with h | h | h | h | h <;> exact ⟨_, exec_of_op h s, exec_of_op h { s with config := c }⟩

end

section
/-! PROOF LAYER. A read-modify-write of the byte at the effective address (44_incdec.md R500, R501, 45_shift_rotate.md
R524). -/

namespace Sys2Proof.Machine

/-- After the resolver, one byte replaced at the effective address, P with it, and nothing else. -/
theorem exists_replacedByte_of_exec {i : Instr} {s : State} {ea : Word} {f : Byte → Byte → Byte × Byte}
    (hea : operandEa s i.operand = some ea) (hexec : exec i s = .next ((s.advance i.length).modifyMem f ea)) :
    ∃ ea t, operandEa s i.operand = some ea ∧ exec i s = .next t ∧ StoredByte s t ea (f (s.read ea) s.p).1 ∧
      t = { s with mem := t.mem, p := (f (s.read ea) s.p).2, pc := nextPc i s } := by
  obtain ⟨hstate, hread⟩ := State.modifyMem_spec f ea (s.advance i.length)
  exact ⟨ea, _, hea, hexec, hread, hstate⟩

/-- An operation with no accumulator form that modifies the byte at its effective address replaces its operand. -/
theorem replacesOperand_of_modifyMem {i : Instr} {op : Op} {f : Byte → Byte → Byte × Byte} (h : i.op = op)
    (hmodes : ∀ mode ∈ op.modes, mode ∉ [.implied, .noneAddressing])
    (hexec : ∀ s, exec i s = .next ((s.advance i.length).modifyMem f (operandAddr i s))) :
    ReplacesOperand i (fun v p => (f v p).1) (fun v p => (f v p).2) := by
  have hmode := hmodes _ (h ▸ mode_mem_modes i)
  refine fun s => ⟨fun himplied => ?accumulator, fun _ => ?memory⟩
  case accumulator => exact absurd (himplied ▸ List.mem_cons_self) hmode
  case memory => exact exists_replacedByte_of_exec (operandEa_eq_operandAddr hmode s) (hexec s)

end Sys2Proof.Machine
end

section
/-! PROOFS. The statements of 44_incdec.md. -/

open Sys2Proof Sys2Proof.Machine

/-- Settles O24: the encodings from the opcode table, then both operations as a modify of the byte at their effective
address, which every one of their modes has. -/
theorem incAndDecReplaceTheByteAtTheEffectiveAddress :
    Obligations.IncAndDecReplaceTheByteAtTheEffectiveAddress := by
  refine ⟨hasEncodings_of_perm (by decide), hasEncodings_of_perm (by decide), fun i => ⟨fun h => ?inc, fun h => ?dec⟩⟩
  case inc => exact replacesOperand_of_modifyMem (f := incByte) h (by decide) (exec_of_op h)
  case dec => exact replacesOperand_of_modifyMem (f := decByte) h (by decide) (exec_of_op h)

/-- Settles O25: each step's encoding is its opcode byte, and its next state is its operation's effect after PC moves
past that byte. -/
theorem indexRegistersStepByOne : Obligations.IndexRegistersStepByOne := by
  intro s
  refine ⟨?inx, ?iny, ?dex, ?dey⟩
  all_goals exact ⟨rfl, exec_eq_instrEffect _ s⟩

end

section
/-! PROOF LAYER. The shifts and rotates: the accumulator form next to the memory form (45_shift_rotate.md R524), and the
byte with the carry as a ring of nine bits that the rotates turn (R522, R523). -/

namespace Sys2Proof.Machine

/-- The operand of a shift or rotate is A in the accumulator form and the byte at the effective address in the others
(R524). -/
theorem replacesOperand_of_shiftEffect {i : Instr} {op : Op} {f : Byte → Byte → Byte × Byte} (h : i.op = op)
    (hmodes : Mode.noneAddressing ∉ op.modes)
    (hexec : ∀ s, exec i s = .next (shiftEffect f (i.mode == .implied) (operandAddr i s) (s.advance i.length))) :
    ReplacesOperand i (fun v p => (f v p).1) (fun v p => (f v p).2) := by
  refine fun s => ⟨fun himplied => ?accumulator, fun himplied => ?memory⟩
  case accumulator =>
    rw [hexec, himplied]
    rfl
  case memory =>
    have hnone : i.mode ≠ .noneAddressing := fun hn => hmodes (hn ▸ h ▸ mode_mem_modes i)
    have hmode : i.mode ∉ [.implied, .noneAddressing] := by simp [himplied, hnone]
    refine exists_replacedByte_of_exec (operandEa_eq_operandAddr hmode s) ?_
    rw [hexec, beq_false_of_ne himplied]
    rfl

theorem ofNat_carryIn (p : Byte) : BitVec.ofNat 8 (carryIn p) = if Flag.carry.get p then 0x01#8 else 0x00#8 := by
  rw [carryIn]
  cases Flag.carry.get p <;> rfl

theorem ofNat_carryIn_shiftLeft_seven (p : Byte) :
    BitVec.ofNat 8 (carryIn p) <<< 7 = if Flag.carry.get p then 0x80#8 else 0x00#8 := by
  rw [carryIn]
  cases Flag.carry.get p <;> rfl

theorem rolByte_eq (v p : Byte) :
    rolByte v p = ((v <<< 1) ||| (if Flag.carry.get p then 0x01#8 else 0x00#8),
      updateZN ((v <<< 1) ||| (if Flag.carry.get p then 0x01#8 else 0x00#8)) (Flag.carry.put (v.getLsbD 7) p)) := by
  rw [rolByte, ofNat_carryIn]

theorem rorByte_eq (v p : Byte) :
    rorByte v p = ((v >>> 1) ||| (if Flag.carry.get p then 0x80#8 else 0x00#8),
      updateZN ((v >>> 1) ||| (if Flag.carry.get p then 0x80#8 else 0x00#8)) (Flag.carry.put (v.getLsbD 0) p)) := by
  rw [rorByte, ofNat_carryIn_shiftLeft_seven]

/-- The nine bits a rotate turns: those of the byte, and the carry as bit 8. -/
def carryRing (q : Byte × Byte) (k : Fin 9) : Bool := if k = 8 then Flag.carry.get q.2 else q.1.getLsbD k

theorem eq_and_carry_eq_of_carryRing_eq {q r : Byte × Byte} (h : ∀ k, carryRing q k = carryRing r k) :
    q.1 = r.1 ∧ Flag.carry.get q.2 = Flag.carry.get r.2 := by
  refine ⟨BitVec.eq_of_getLsbD_eq fun k hk => ?_, h 8⟩
  have hne : (⟨k, by omega⟩ : Fin 9) ≠ 8 := Fin.ne_of_lt hk
  simpa [carryRing, hne] using h ⟨k, by omega⟩

/-- ROL moves each bit of the ring one place up. -/
theorem carryRing_rolByte (q : Byte × Byte) (k : Fin 9) :
    carryRing (rolByte q.1 q.2) (k + 1) = carryRing q k := by
  rw [rolByte_eq]
  fin_cases k
  all_goals cases hc : Flag.carry.get q.2 <;> simp [carryRing, hc]

/-- ROR moves each bit of the ring one place down. -/
theorem carryRing_rorByte (q : Byte × Byte) (k : Fin 9) :
    carryRing (rorByte q.1 q.2) k = carryRing q (k + 1) := by
  rw [rorByte_eq]
  fin_cases k
  all_goals cases hc : Flag.carry.get q.2 <;> simp [carryRing, hc]

section
variable {f : Byte × Byte → Byte × Byte} {d : Fin 9} (hf : ∀ q k, carryRing (f q) (k + d) = carryRing q k)
include hf

theorem carryRing_repeat (q : Byte × Byte) (n : Nat) (k : Fin 9) :
    carryRing (Nat.repeat f n q) (k + n • d) = carryRing q k := by
  induction n with
  | zero => rw [zero_nsmul, add_zero, Nat.repeat]
  | succ n ih => rw [succ_nsmul, ← add_assoc, Nat.repeat, hf, ih]

/-- A turn of the ring by any number of places, done nine times, leaves every bit in its place. -/
theorem repeat_nine_restores (q : Byte × Byte) :
    (Nat.repeat f 9 q).1 = q.1 ∧ Flag.carry.get (Nat.repeat f 9 q).2 = Flag.carry.get q.2 := by
  have hround : 9 • d = 0 := by simpa only [Fintype.card_fin] using card_nsmul_eq_zero (x := d)
  refine eq_and_carry_eq_of_carryRing_eq fun k => ?_
  simpa only [hround, add_zero] using carryRing_repeat hf q 9 k

end

end Sys2Proof.Machine
end

section
/-! PROOFS. The statements of 45_shift_rotate.md. -/

open Sys2Proof Sys2Proof.Machine

/-- Settles O27: a rotate turns the ring of the byte and the carry by one place, so nine turns come full circle and a
turn back undoes a turn forward. -/
theorem nineRotatesRestoreTheByteAndTheCarry : Obligations.NineRotatesRestoreTheByteAndTheCarry := by
  intro v p rol ror
  have hright (q : Byte × Byte) (k : Fin 9) : carryRing (ror q) (k + -1) = carryRing q k :=
    (carryRing_rorByte q (k + -1)).trans (congrArg _ (neg_add_cancel_right k 1))
  have hundo (k : Fin 9) : carryRing (ror (rol (v, p))) k = carryRing (v, p) k :=
    (carryRing_rorByte (rol (v, p)) k).trans (carryRing_rolByte (v, p) k)
  exact ⟨repeat_nine_restores carryRing_rolByte (v, p), repeat_nine_restores hright (v, p),
    eq_and_carry_eq_of_carryRing_eq hundo⟩

/-- Settles O26: the encodings from the opcode table, then each operation as a modify of its operand, A or the byte at
the effective address. -/
theorem shiftsAndRotatesMoveOneBitThroughCarry : Obligations.ShiftsAndRotatesMoveOneBitThroughCarry := by
  refine ⟨hasEncodings_of_perm (by decide), hasEncodings_of_perm (by decide), hasEncodings_of_perm (by decide),
    hasEncodings_of_perm (by decide), fun i => ⟨fun h => ?asl, fun h => ?lsr, fun h => ?rol, fun h => ?ror⟩⟩
  case asl => exact replacesOperand_of_shiftEffect (f := aslByte) h (by decide) (exec_of_op h)
  case lsr => exact replacesOperand_of_shiftEffect (f := lsrByte) h (by decide) (exec_of_op h)
  case rol =>
    simpa only [rolByte_eq] using replacesOperand_of_shiftEffect (f := rolByte) h (by decide) (exec_of_op h)
  case ror =>
    simpa only [rorByte_eq] using replacesOperand_of_shiftEffect (f := rorByte) h (by decide) (exec_of_op h)

end

section
/-! PROOF LAYER. A compare: P from the register and the operand byte, and N of the difference in numbers
(46_logic_compare.md R544). -/

namespace Sys2Proof.Machine

theorem getLsbD_seven_sub (r m : Byte) :
    (r - m).getLsbD 7 = decide ((r.toNat + 256 - m.toNat) % 256 ≥ 128) := by
  have hm : m.toNat < 256 := m.isLt
  rw [getLsbD_seven, BitVec.toNat_sub, decide_eq_decide]
  omega

/-- CMP, CPX and CPY are `Compare(r, m)` on their register and their operand byte, and nothing else (R545, R546,
R547). -/
theorem exec_of_compare {i : Instr} {s : State} {r : Byte}
    (h : i.op = .cmp ∧ r = s.a ∨ i.op = .cpx ∧ r = s.x ∨ i.op = .cpy ∧ r = s.y) :
    operandValue s i.operand = some (operandByte i s) ∧
      exec i s = .next ((s.advance i.length).setP (compareFlags r (operandByte i s) s.p)) := by
  rcases h with ⟨h, rfl⟩ | ⟨h, rfl⟩ | ⟨h, rfl⟩
  all_goals exact ⟨operandValue_of_op h (by decide) s, exec_of_op h s⟩

end Sys2Proof.Machine
end

section
/-! PROOFS. The statements of 46_logic_compare.md. -/

open Sys2Proof Sys2Proof.Machine

/-- Settles O28: the encodings from the opcode table, then each operation's effect on A and its operand byte. -/
theorem logicalOperationsCombineAWithTheOperand : Obligations.LogicalOperationsCombineAWithTheOperand := by
  refine ⟨hasEncodings_of_perm (by decide), hasEncodings_of_perm (by decide), hasEncodings_of_perm (by decide),
    fun i s => ⟨fun h => ?and, fun h => ?ora, fun h => ?eor⟩⟩
  all_goals exact ⟨operandByte i s, operandValue_of_op h (by decide) s, exec_of_op h s⟩

/-- Settles O29: the encodings from the opcode table, then the new P flag by flag. -/
theorem bitTestsWithoutWritingA : Obligations.BitTestsWithoutWritingA := by
  refine ⟨hasEncodings_of_perm (by decide), fun i s h => ?_⟩
  refine ⟨operandByte i s, _, operandValue_of_bit h s, exec_of_op h s, rfl, ?zero, ?overflow, ?negative,
    fun f hf => ?other⟩
  case other => exact get_bitFlags_of_other (List.mem_reverse.not.mpr hf) ..
  all_goals exact get_bitFlags ..

/-- Settles O30: the encodings from the opcode table, then the three operations as one compare and its P flag by
flag. -/
theorem comparesSetFlagsFromTheDifferenceOnly : Obligations.ComparesSetFlagsFromTheDifferenceOnly := by
  refine ⟨hasEncodings_of_perm (by decide), hasEncodings_of_perm (by decide), hasEncodings_of_perm (by decide),
    fun i s r h => ?_⟩
  obtain ⟨hvalue, hexec⟩ := exec_of_compare h
  refine ⟨operandByte i s, _, hvalue, hexec, rfl, ?carry, ?zero, ?negative, fun f hf => ?other⟩
  case carry | zero => exact get_compareFlags ..
  case negative => exact (get_compareFlags ..).trans (getLsbD_seven_sub ..)
  case other => exact get_compareFlags_of_other (List.mem_reverse.not.mpr hf) ..

end

section
/-! PROOF LAYER. A branch on a clear flag, and the branch target counted from the address of the opcode
(47_branch.md R560). -/

namespace Sys2Proof.Machine

theorem branchEffect_not (b : Bool) (ea : Word) (s : State) :
    branchEffect (!b) ea s = s.setPc (if b = false then ea else s.pc) := by
  cases b <;> rfl

/-- The offset counts from the address after the branch's two bytes, modulo 65536. -/
theorem toNat_eaRelative_add_two (off : Byte) (pc : Word) :
    ((eaRelative off (pc + 2#16)).toNat : Int) = ((pc.toNat : Int) + 2 + signed8 off) % 65536 := by
  have hpc : ((pc + 2#16).toNat : Int) = ((pc.toNat : Int) + 2) % 65536 :=
    congrArg Int.ofNat (BitVec.toNat_add pc 2#16)
  rw [toNat_eaRelative, hpc, Int.emod_add_emod]

end Sys2Proof.Machine
end

section
/-! PROOFS. The statements of 47_branch.md. -/

open Sys2Proof Sys2Proof.Machine

/-- Settles O31: the target in numbers, then each branch's effect after PC moves past its two bytes, split by whether
it waits for its flag set or clear. -/
theorem branchesTakeTheirTargetOnTheirFlag : Obligations.BranchesTakeTheirTargetOnTheirFlag := by
  refine ⟨fun pc off => toNat_eaRelative_add_two off pc, fun off s => ?_⟩
  refine ⟨?bpl, ?bmi, ?bvc, ?bvs, ?bcc, ?bcs, ?bne, ?beq⟩
  case bmi | bvs | bcs | beq => exact ⟨rfl, exec_eq_instrEffect _ s⟩
  case bpl | bvc | bcc | bne =>
    exact ⟨rfl, (exec_eq_instrEffect _ s).trans (congrArg Host.Outcome.next (branchEffect_not ..))⟩

end

section
/-! PROOF LAYER. The stack between a push and its pull: a pull sees SP and the pushed bytes only, so it undoes the push
from any state that has them as the push left them. Then the operations of 48_jump_subroutine.md over it. -/

namespace Sys2Proof.Machine

namespace State

theorem read_push16 (s : State) (w k : Word) :
    (s.push16 w).read k =
      if k = stackAddr s.sp then hiByte w else if k = stackAddr (s.sp - 1#8) then loByte w else s.read k := by
  rw [(push16_spec s w).2]
  split
  · next hlow => rw [if_neg (hlow ▸ stackAddr_pred_ne s.sp)]
  · rfl

theorem pull_of_alike_push {s u : State} {v : Byte} (hsp : u.sp = s.sp - 1#8)
    (hbyte : u.read (stackAddr s.sp) = (s.push v).read (stackAddr s.sp)) : u.pull = (v, u.setSp s.sp) := by
  have hback : u.sp + 1#8 = s.sp := by rw [hsp, BitVec.sub_add_cancel]
  have hv : u.read (stackAddr s.sp) = v := by rw [hbyte, (push_spec s v).2, if_pos rfl]
  refine Prod.ext ?_ ?_
  · rw [pull_fst, hback, hv]
  · rw [pull_snd, hback]

theorem pull16_of_alike_push16 {s u : State} {w : Word} (hsp : u.sp = s.sp - 2#8)
    (hbytes : ∀ k ∈ [stackAddr s.sp, stackAddr (s.sp - 1#8)], u.read k = (s.push16 w).read k) :
    u.pull16 = (w, u.setSp s.sp) := by
  have hlow : u.sp + 1#8 = s.sp - 1#8 := by bv_omega
  have hhigh : u.sp + 2#8 = s.sp := by bv_omega
  rw [pull16_spec, hlow, hhigh, hbytes _ (by simp), hbytes _ (by simp), read_push16, read_push16, if_pos rfl,
    if_neg (stackAddr_pred_ne s.sp), if_pos rfl, hiLo_hiByte_loByte]

end State

/-- JSR pushes the address of its last byte, two after its opcode's (R581). -/
theorem exec_jsr (w : Word) (s : State) :
    exec (.jsr w) s = .next (((s.advance 3).push16 (s.pc + 2#16)).setPc w) := by
  have hlast : s.pc + 3#16 - 1#16 = s.pc + 2#16 := by bv_omega
  rw [← hlast]
  exact exec_eq_instrEffect (.jsr w) s

theorem exec_rts (s : State) :
    exec .rts s = .next ((s.advance 1).pull16.2.setPc ((s.advance 1).pull16.1 + 1#16)) :=
  exec_eq_instrEffect .rts s

/-- RTI pulls three bytes: P, then the two of PC (R583). -/
theorem opRti_eq (s : State) :
    opRti s = ((s.setSp (s.sp + 3#8)).setP (pulledStatus (s.read (State.stackAddr (s.sp + 1#8))) s.p)).setPc
      (hiLo (s.read (State.stackAddr (s.sp + 3#8))) (s.read (State.stackAddr (s.sp + 2#8)))) := by
  have hlow : s.sp + 1#8 + 1#8 = s.sp + 2#8 := by bv_omega
  have hhigh : s.sp + 1#8 + 2#8 = s.sp + 3#8 := by bv_omega
  rw [← hlow, ← hhigh, opRti, State.pull16_spec]
  rfl

end Sys2Proof.Machine
end

section
/-! PROOFS. The statements of 48_jump_subroutine.md. -/

open Sys2Proof Sys2Proof.Machine

/-- Settles O35: RTS pulls back the word that JSR pushed, the address before the next instruction's. -/
theorem rtsReturnsToTheInstructionAfterJsr : Obligations.RtsReturnsToTheInstructionAfterJsr := by
  intro s t u w hjsr hsp hbytes
  cases (exec_jsr w s).symm.trans hjsr
  have hpushed : u.sp = s.sp - 2#8 := hsp.trans (congrArg State.sp (State.push16_spec (s.advance 3) _).1)
  have hpull : (u.advance 1).pull16 = (s.pc + 2#16, (u.advance 1).setSp s.sp) :=
    State.pull16_of_alike_push16 (s := s.advance 3) hpushed hbytes
  refine ⟨_, exec_rts u, ?pc, ?sp⟩
  case pc => rw [State.setPc_pc, hpull]; bv_omega
  case sp => rw [State.setPc_sp, hpull, State.setSp_sp]

/-- Settles O32: each form's bytes are its encoding, and its next state is PC at its effective address. -/
theorem jmpGoesToItsTarget : Obligations.JmpGoesToItsTarget := by
  intro w s
  refine ⟨?jmpAbs, ?jmpInd⟩
  all_goals exact ⟨rfl, exec_eq_instrEffect _ s⟩

/-- Settles O33: the two bytes of a 16-bit push, and its frame. -/
theorem jsrPushesItsLastByteAddressAndJumps : Obligations.JsrPushesItsLastByteAddressAndJumps := by
  intro w s
  refine ⟨rfl, _, exec_jsr w s, ?frame, (s.advance 3).read_push16 (s.pc + 2#16)⟩
  case frame => exact congrArg (State.setPc · w) (State.push16_spec (s.advance 3) _).1

/-- Settles O34: the bytes each return pulls, after PC moves past its one byte. -/
theorem rtsAndRtiReturnFromTheStack : Obligations.RtsAndRtiReturnFromTheStack := by
  refine fun s => ⟨⟨rfl, ?rts⟩, rfl, ?rti⟩
  case rts => rw [exec_rts, State.pull16_spec]; rfl
  case rti => exact (exec_eq_instrEffect .rti s).trans (congrArg Host.Outcome.next (opRti_eq _))

/-- Settles O36: BRK's effect is the halt, and a zero byte at PC is the whole of its encoding. -/
theorem brkHaltsAndWritesNothingElse : Obligations.BrkHaltsAndWritesNothingElse := by
  have hexec := exec_eq_instrEffect .brk
  refine ⟨rfl, rfl, hexec, fun s hr hbyte => ⟨_, ?step, rfl, rfl⟩⟩
  case step =>
    refine (stepRunsTheInstructionEncodedAtPc s .brk hr fun k hk => ?_).trans (hexec s)
    obtain rfl : k = 0 := Nat.lt_one_iff.mp hk
    exact (congrArg s.read (BitVec.add_zero s.pc)).trans hbyte

end

section
/-! PROOF LAYER. The status byte pushed and pulled (49_stack_flags.md R601, R603). -/

namespace Sys2Proof.Machine

/-- The mask 0x30 is the two bits that PLP and RTI keep. -/
theorem get_0x30 (f : Flag) : f.get 0x30#8 = decide (f = .brk ∨ f = .unused) := by cases f <;> decide

/-- PLP gives back the P that PHP pushed where bits 4 and 5 of P are still the same: it keeps those two and pulls the
other six. -/
theorem pulledStatus_pushedStatus {p q : Byte} (h : q &&& 0x30#8 = p &&& 0x30#8) :
    pulledStatus (pushedStatus p) q = p := by
  refine Flag.ext_get fun f => ?_
  have hkept := congrArg f.get h
  rw [get_and, get_and, get_0x30] at hkept
  rw [get_pulledStatus, get_pushedStatus]
  by_cases hf : f = .brk ∨ f = .unused
  · simpa [hf] using hkept
  · simp [hf]

end Sys2Proof.Machine
end

section
/-! PROOFS. The statements of 49_stack_flags.md. -/

open Sys2Proof Sys2Proof.Machine

/-- Settles O39: the pull gives the pushed byte back, A as it was and P by its eight bits. -/
theorem pullsUndoPushes : Obligations.PullsUndoPushes := by
  refine fun s t u => ⟨fun hphp hsp hbyte hkept => ?plp, fun hpha hsp hbyte => ?pla⟩
  case plp =>
    cases (exec_eq_instrEffect .php s).symm.trans hphp
    have hpull : (u.advance 1).pull = (pushedStatus s.p, (u.advance 1).setSp s.sp) :=
      State.pull_of_alike_push (s := s.advance 1) hsp hbyte
    refine ⟨_, exec_eq_instrEffect .plp u, ?p, congrArg (fun r => r.2.sp) hpull⟩
    case p => exact (congrArg (fun r => pulledStatus r.1 u.p) hpull).trans (pulledStatus_pushedStatus hkept)
  case pla =>
    cases (exec_eq_instrEffect .pha s).symm.trans hpha
    have hpull : (u.advance 1).pull = (s.a, (u.advance 1).setSp s.sp) :=
      State.pull_of_alike_push (s := s.advance 1) hsp hbyte
    exact ⟨_, exec_eq_instrEffect .pla u, congrArg Prod.fst hpull, congrArg (fun r => r.2.sp) hpull⟩

/-- Settles O37: each push by its law, after PC moves past its one byte. -/
theorem phaAndPhpPushOneByte : Obligations.PhaAndPhpPushOneByte := by
  intro s
  have hpush := (s.advance 1).push_spec
  exact ⟨⟨rfl, _, exec_eq_instrEffect .pha s, (hpush s.a).2, (hpush s.a).1⟩,
    rfl, _, exec_eq_instrEffect .php s, (hpush (pushedStatus s.p)).2, (hpush (pushedStatus s.p)).1⟩

/-- Settles O38: each pull's encoding is its opcode byte, and its next state is its operation's effect after PC moves
past that byte. -/
theorem plaAndPlpPullOneByte : Obligations.PlaAndPlpPullOneByte := by
  intro s v
  refine ⟨?pla, ?plp⟩
  all_goals exact ⟨rfl, exec_eq_instrEffect _ s⟩

/-- Settles O40: each instruction's next state by its flag's mask, then D as CLD and SED leave it. -/
theorem flagInstructionsWriteOneBitOfP : Obligations.FlagInstructionsWriteOneBitOfP := by
  refine ⟨fun s => ⟨?clc, ?sec, ?cli, ?sei, ?clv, ?cld, ?sed⟩,
    fun s t => ⟨fun hcld => ?binary, fun hsed => ?decimal⟩⟩
  case binary =>
    cases (exec_eq_instrEffect .cld s).symm.trans hcld
    have hd : Flag.decimalMode.get (instrEffect .cld s).p = false := (Flag.get_put ..).trans (if_pos rfl)
    simp [State.decimal, hd]
  case decimal =>
    cases (exec_eq_instrEffect .sed s).symm.trans hsed
    have hd : Flag.decimalMode.get (instrEffect .sed s).p = true := (Flag.get_put ..).trans (if_pos rfl)
    exact (State.decimal_iff _).trans (and_iff_right hd)
  all_goals exact ⟨rfl, exec_eq_instrEffect _ s⟩

/-- Settles O41: NOP has no effect but PC's move past its one byte. -/
theorem nopOnlyAdvancesPc : Obligations.NopOnlyAdvancesPc := ⟨rfl, exec_eq_instrEffect .nop⟩

end

section
/-! PROOF LAYER. What a step leaves in RS, by the byte at PC: BRK halts, an unknown byte faults under the strict policy,
and every other byte leaves the core Running (60_exceptions.md R700). -/

namespace Sys2Proof.Machine

/-- The zero byte is BRK's and no other instruction's (30_encoding.md R306). -/
theorem opcode_eq_zero_iff {i : Instr} : i.opcode = 0x00#8 ↔ i.op = .brk := by
  constructor
  · intro h
    have htable : tableOp 0x00#8 = some i.op := h ▸ tableOp_opcode i
    exact (Option.some.inj htable).symm
  · intro h
    have hrows : HasEncodings .brk [(0x00#8, .noneAddressing)] := hasEncodings_of_perm (by decide)
    have hrow := (hrows i).mp h
    exact (Prod.ext_iff.mp (List.mem_singleton.mp hrow)).1

theorem zero_not_mem_unknownBytes : 0 ∉ unknownBytes := by decide

theorem opcode_not_mem_unknownBytes (i : Instr) : i.opcode.toNat ∉ unknownBytes := by
  rw [mem_unknownBytes_iff, opcodeTable_mode_opcode]
  exact Option.some_ne_none _

theorem instrEffect_rs_of_brk {i : Instr} (h : i.op = .brk) (s : State) : (instrEffect i s).rs = .halted := by
  rw [instrEffect, h]
  rfl

theorem instrEffect_rs_of_ne_brk {i : Instr} (h : i.op ≠ .brk) (s : State) : (instrEffect i s).rs = s.rs :=
  opEffect_rs _ _ _ _ h

namespace State

theorem read_pc_of_fetch_eq_ok {s : State} {i : Instr} (h : s.fetch = .ok i) : s.read s.pc = i.opcode :=
  (congrArg s.read (BitVec.add_zero s.pc)).symm.trans (fetch_eq_ok_iff.mp h 0 (Nat.succ_pos _))

theorem unknownOpcode_config (s : State) (op : Byte) (addr : Word) :
    (s.unknownOpcode op addr).config = s.config := by
  cases hc : s.config.unknownOpcode with
  | strict => rw [unknownOpcode_strict hc, setRun_config]
  | permissive => rw [unknownOpcode_permissive hc, emit_config]

theorem unknownOpcode_rs (s : State) (op : Byte) (addr : Word) :
    (s.unknownOpcode op addr).rs = if s.config.unknownOpcode = .strict then .faulted else s.rs := by
  cases hc : s.config.unknownOpcode with
  | strict => rw [unknownOpcode_strict hc]; rfl
  | permissive => rw [unknownOpcode_permissive hc]; rfl

end State

/-- On one of the bytes R308 lists, a Running step is the unknown-opcode policy. -/
theorem step_of_mem_unknownBytes {s : State} (hr : s.rs = .running) (h : (s.read s.pc).toNat ∈ unknownBytes) :
    step s = .next ((s.advance 1).unknownOpcode (s.read s.pc) s.pc) :=
  step_unknown hr (State.fetch_eq_error_iff.mpr ⟨rfl, (mem_unknownBytes_iff _).mp h⟩)

/-- The run state after a step from Running. -/
def rsAfterStep (s : State) : RunState :=
  if s.read s.pc = 0x00#8 then .halted
  else if (s.read s.pc).toNat ∈ unknownBytes ∧ s.config.unknownOpcode = .strict then .faulted
  else .running

theorem exists_step_rs {s : State} (hr : s.rs = .running) : ∃ t, step s = .next t ∧ t.rs = rsAfterStep s := by
  rw [rsAfterStep]
  cases hf : s.fetch with
  | ok i =>
    refine ⟨_, (step_fetched hr hf).trans (exec_eq_instrEffect i s), ?_⟩
    rw [State.read_pc_of_fetch_eq_ok hf]
    by_cases hbrk : i.op = .brk
    · rw [if_pos (opcode_eq_zero_iff.mpr hbrk), instrEffect_rs_of_brk hbrk]
    · rw [if_neg (opcode_eq_zero_iff.not.mpr hbrk), if_neg fun h => opcode_not_mem_unknownBytes i h.1,
        instrEffect_rs_of_ne_brk hbrk, hr]
  | error op =>
    obtain ⟨rfl, hmode⟩ := fetch_error hf
    have hmem := (mem_unknownBytes_iff _).mpr hmode
    have hne : s.read s.pc ≠ 0x00#8 := fun h => zero_not_mem_unknownBytes (by simpa [h] using hmem)
    refine ⟨_, step_unknown hr hf, ?_⟩
    simp [State.unknownOpcode_rs, hne, hmem, hr]

end Sys2Proof.Machine
end

section
/-! PROOFS. The statements of 60_exceptions.md. -/

open Sys2Proof Sys2Proof.Machine

/-- Settles O12: the byte at PC and the policy decide RS after the step, and the two ends exclude each other. -/
theorem stepEndsInExactlyOneOutcome : Obligations.StepEndsInExactlyOneOutcome := by
  refine ⟨fun s hr => ?step, fun i s => ⟨_, exec_eq_instrEffect i s, fun h => ?exec⟩⟩
  case step =>
    obtain ⟨t, hstep, hrs⟩ := exists_step_rs hr
    refine ⟨t, hstep, ?_⟩
    rw [hrs, rsAfterStep]
    by_cases hbrk : s.read s.pc = 0x00#8
    · simp [hbrk, zero_not_mem_unknownBytes]
    · by_cases hfault : (s.read s.pc).toNat ∈ unknownBytes ∧ s.config.unknownOpcode = .strict
      · simp [hbrk, hfault]
      · simp [hbrk, hfault]
  case exec =>
    by_cases hbrk : i.op = .brk
    · cases (instrEffect_rs_of_brk hbrk s).symm.trans h
    · exact (instrEffect_rs_of_ne_brk hbrk s).symm.trans h

/-- Settles O55: the frame of each operation in RS, FR, the parameters and the diagnostics, and the three ways a step
can go. -/
theorem runStateAndRecordChangeOnlyByBrk : Obligations.RunStateAndRecordChangeOnlyByBrk := by
  refine ⟨fun i s => ⟨_, exec_eq_instrEffect i s, fun h => ⟨opEffect_rs _ _ _ _ h, opEffect_fr _ _ _ _ h⟩,
    opEffect_config .., opEffect_diagnostics ..⟩, fun s => ?step⟩
  case step =>
    obtain ⟨-, hs⟩ | ⟨i, -, -, hs⟩ | ⟨op, -, -, hs⟩ := step_cases s
    · exact ⟨s, hs, rfl⟩
    · exact ⟨_, hs.trans (exec_eq_instrEffect i s), opEffect_config ..⟩
    · exact ⟨_, hs, State.unknownOpcode_config ..⟩

/-- Settles O10: the strict policy's state, in which RS is Faulted. -/
theorem unknownOpcodeUnderStrictFaults : Obligations.UnknownOpcodeUnderStrictFaults := by
  intro s hr hc h
  refine ⟨(s.advance 1).setRun .faulted (.illegalOpcode (s.read s.pc) s.pc), ?step, rfl, rfl, step_stopped nofun,
    rfl⟩
  case step => rw [step_of_mem_unknownBytes hr h, State.unknownOpcode_strict (s := s.advance 1) hc]

/-- Settles O11: the permissive policy's state, in which RS is as before. -/
theorem unknownOpcodeUnderPermissiveIsANoOp : Obligations.UnknownOpcodeUnderPermissiveIsANoOp := by
  intro s hr hc h
  refine ⟨(s.advance 1).emit { op := s.read s.pc, addr := s.pc }, ?step, beq_iff_eq.mpr hr, rfl⟩
  case step => rw [step_of_mem_unknownBytes hr h, State.unknownOpcode_permissive (s := s.advance 1) hc]

end

section
/-! PROOF LAYER. The host's calls: the bytes `load` leaves, and the state kept legal (70_reset_and_hazards.md). -/

namespace Sys2Proof.Machine

theorem get_zero (f : Flag) : f.get 0x00#8 = false := BitVec.getLsbD_zero

namespace State

theorem Legal.setMem {s : State} (h : s.Legal) {m : Memory} (hm : m.wf) : (s.setMem m).Legal :=
  ⟨hm, h.record, h.breakClear, h.unusedClear, h.strictSilent⟩

theorem Legal.write {s : State} (h : s.Legal) (addr : Word) (v : Byte) : (s.write addr v).Legal :=
  h.setMem (wf_write h.memory addr v)

theorem Legal.write16 {s : State} (h : s.Legal) (addr v : Word) : (s.write16 addr v).Legal :=
  (h.write addr _).write _ _

theorem Legal.writeBytes {s : State} (h : s.Legal) (addr : Word) (bytes : List Byte) :
    (s.writeBytes addr bytes).Legal := by
  obtain ⟨hstate, hwf⟩ := writeBytes_spec bytes s addr
  rw [hstate]
  exact h.setMem (hwf h.memory)

theorem Legal.hostReset {s : State} (h : s.Legal) : s.hostReset.Legal :=
  ⟨h.memory, trivial, get_zero _, get_zero _, h.strictSilent⟩

theorem legal_new (c : Config) : (new c).Legal := ⟨Memory.wf_nil, trivial, get_zero _, get_zero _, fun _ => rfl⟩

theorem reset_eq_hostReset_new : reset = (new Config.default).hostReset := by decide

/-- A load that answers a state answers the program's bytes with the vector over them. -/
theorem eq_of_load_eq_next {s t : State} {program : List Byte} (h : s.load program = .next t) :
    t = (s.writeBytes loadBase program).write16 resetVector loadBase := by
  rcases le_or_gt program.length 0x8000 with hle | hlt
  · cases (load_of_length_le hle s).symm.trans h
    rfl
  · cases (load_of_lt_length hlt s).symm.trans h

/-- What `load` leaves at each address (70_reset_and_hazards.md R801). -/
theorem read_loaded {program : List Byte} (h : program.length ≤ 0x8000) (s : State) (k : Word) :
    ((s.writeBytes loadBase program).write16 resetVector loadBase).read k =
      if k = 0xFFFC#16 then 0x00#8 else if k = 0xFFFD#16 then 0x80#8
      else if 0x8000 ≤ k.toNat ∧ k.toNat - 0x8000 < program.length
        then program.getD (k.toNat - 0x8000) 0#8
      else s.read k := by
  have hfits : loadBase.toNat + program.length ≤ 65536 := Nat.add_le_add_left h 0x8000
  rw [write16, read_write_comm _ (succ_ne resetVector).symm, read_write, read_write, read_writeBytes _ _ _ _ hfits]
  rfl

end State

end Sys2Proof.Machine
end

section
/-! PROOFS. The statements of 70_reset_and_hazards.md. -/

open Sys2Proof Sys2Proof.Machine

/-- Settles O59: the bytes an accepted load leaves, and the vector as the reset reads it back. -/
theorem loadPlacesTheProgramThenTheVector : Obligations.LoadPlacesTheProgramThenTheVector := by
  refine fun s program => ⟨fun h => ?_, fun h => State.load_of_lt_length h s⟩
  refine ⟨_, State.load_of_length_le h s, ?frame, State.read_loaded h s, ?vector, rfl, rfl, rfl⟩
  case frame =>
    exact congrArg (State.write16 · resetVector loadBase) (State.writeBytes_spec program s loadBase).1
  case vector => exact State.read16_write16 _ resetVector loadBase

/-- Settles O57: each call writes memory alone, byte by byte, or starts the core afresh. -/
theorem resetNewAndHostCallsGiveLegalStates : Obligations.ResetNewAndHostCallsGiveLegalStates := by
  refine ⟨?reset, State.legal_new, fun s h => ⟨h.hostReset, h.write, h.write16, fun program t ht => ?load⟩⟩
  case reset => rw [State.reset_eq_hostReset_new]; exact (State.legal_new _).hostReset
  case load => rw [State.eq_of_load_eq_next ht]; exact (h.writeBytes loadBase program).write16 resetVector loadBase

/-- Settles O58: the values as defined, and the first step after `new` as BRK's over the zeroed memory. -/
theorem newAndResetGiveTheStatedValues : Obligations.NewAndResetGiveTheStatedValues := by
  refine ⟨fun c => ⟨rfl, rfl, rfl, rfl, rfl, rfl, rfl, rfl, fun _ => rfl, rfl, ?brk⟩, fun _ => rfl,
    State.reset_eq_hostReset_new⟩
  case brk =>
    obtain ⟨-, -, -, hbrk⟩ := brkHaltsAndWritesNothingElse
    obtain ⟨t, hstep, -, ht⟩ := hbrk (State.new c) rfl rfl
    exact hstep.trans (congrArg Host.Outcome.next ht)

end
